-- ==== Sys2Proof/Word.lean ====
section
/-!
DEFINITION. The widths the JL408 manual uses, the index types of its fixed tables, and the plainest arithmetic on them.
-/

namespace Sys2Proof

/-- One remote register, one I2C byte, one frame byte (R1). -/
abbrev Byte := BitVec 8

/-- A 16-bit number: remote addresses, ages, stamps, sequence numbers (R1). -/
abbrev Word16 := BitVec 16

/-- The width of the time base count and of a watch limit (R29, R164). -/
abbrev Word32 := BitVec 32

/-- Host n of the three hosts, on port HPn (R1). -/
abbrev Host := Fin 3

/-- Link 0 or link 1 (R1). -/
abbrev Link := Fin 2

/-- One of the eight node places in ascending node reference: 0.1 to 0.4, then 1.1 to 1.4 (R1, R78). -/
abbrev Node := Fin 8

/-- One of the eight tags of a link (R111). -/
abbrev Tag := Fin 8

/-- A slot index of the Mirror Table, 0 to 47 (R2). -/
abbrev SlotIx := Fin 48

/-- A slot number of a host's alias slots, 0 to 7 (R135). -/
abbrev AliasIx := Fin 8

/-- A count that stops at its greatest value. -/
def satInc {w : Nat} (x : BitVec w) : BitVec w := if x = BitVec.allOnes w then x else x + 1

/-- A count that wraps from its greatest value to 1, so that 0 is never counted to. -/
def incSkipZero {w : Nat} (x : BitVec w) : BitVec w := if x + 1 = 0 then 1 else x + 1

/-- One place of a fixed table replaced by what `f` makes of it. -/
def upd {α : Type} {n : Nat} (v : Vector α n) (i : Fin n) (f : α → α) : Vector α n :=
  v.set i.val (f (v.get i)) i.isLt

end Sys2Proof
end

