-- ==== Sys2Proof/Syntax.lean ====
section
/-!
DEFINITION. The commands the block takes: one constructor per row of spec/opcode_table.json, with the row's operands.
-/

namespace Sys2Proof

/-- The direction bit of an I2C address byte. -/
inductive Direction
  | write
  | read
  deriving DecidableEq, Repr

/-- Bytes received on a link, up to the end of a frame or of the line activity (R173). -/
structure LineBytes where
  link : Link
  bytes : List Byte
  deriving DecidableEq, Repr

/-- The steps of the part, in the order of the table. `h` is the host whose port is concerned, `l` the link,
`ps` the parameter bytes of a host command in the order received (R150). -/
inductive Instr
  /-- RESET with the strap pins ADDR_SEL (high or low) and SETUP_SEL1/0 as sampled (R133). -/
  | reset (addrSel : Bool) (setupSel : BitVec 2)
  /-- MILLISECOND_EVENT (R29). -/
  | millisecondEvent
  /-- CLASS_TICK: the ticks of the present millisecond event (R32, R33). -/
  | classTick
  /-- STALE_LIMIT_REACHED: the stale check of the present millisecond event (R41). -/
  | staleLimitReached
  /-- LEASE_EXPIRY: the lease check of the present millisecond event (R72). -/
  | leaseExpiry
  /-- TRAINING_DEADLINE of link `l` at the present millisecond event (R101). -/
  | trainingDeadline (l : Link)
  /-- HOLD_OFF_END of link `l` at the present millisecond event (R106). -/
  | holdOffEnd (l : Link)
  /-- SILENCE_DETECTED on link `l` at the present millisecond event (R103). -/
  | silenceDetected (l : Link)
  /-- RESPONSE_TIMER_EXPIRY of the request on tag `t` of link `l` (R121). -/
  | responseTimerExpiry (l : Link) (t : Tag)
  /-- FRAME_SENT: the last byte of the frame that link `l` sends next is sent: the oldest waiting request copy, or a SYNC
  frame while no request waits (R97, R116). -/
  | frameSent (l : Link)
  /-- BAD_FRAME: a link receives bytes, and the receiver judges them: a bad frame, or line activity that ends without one
  (R98, R173). -/
  | badFrame (line : LineBytes)
  /-- SYNC_FRAME: link `l` receives the bytes of a SYNC (R99, R101, R173). -/
  | syncFrame (l : Link)
  /-- RESPONSE_FRAME: link `l` receives the bytes of a RESPONSE with these fields (R117, R173). -/
  | responseFrame (l : Link) (tag : Tag) (round : BitVec 2) (node status : Byte) (data : List Byte)
  /-- NOTICE_FRAME: link `l` receives the bytes of a NOTICE with these fields (R125, R173). -/
  | noticeFrame (l : Link) (node count : Byte) (address : Word16) (length : Byte)
  /-- HELLO_FRAME: link `l` receives the bytes of a HELLO with this node address (R87, R173). -/
  | helloFrame (l : Link) (node : Byte)
  /-- ALIAS_WRITE_ADDRESS_BYTE: write-direction address byte `a` on the bus of host `h` (R48, R134). -/
  | aliasWriteAddressByte (h : Host) (a : BitVec 7)
  /-- ALIAS_READ_ADDRESS_BYTE: read-direction address byte `a` on the bus of host `h` (R134, R142). -/
  | aliasReadAddressByte (h : Host) (a : BitVec 7)
  /-- CONTROL_WRITE_ADDRESS_BYTE: the control address, write direction (R134). -/
  | controlWriteAddressByte (h : Host)
  /-- CONTROL_READ_ADDRESS_BYTE: the control address, read direction (R147). -/
  | controlReadAddressByte (h : Host)
  /-- ADDRESS_NOT_ACKNOWLEDGED: address byte `a` that should match nothing of the host (R134). -/
  | addressNotAcknowledged (h : Host) (a : BitVec 7) (d : Direction)
  /-- REGISTER_BYTE (R139). -/
  | registerByte (h : Host) (b : Byte)
  /-- ALIAS_WRITE_DATA_BYTE (R49, R140). -/
  | aliasWriteDataByte (h : Host) (b : Byte)
  /-- CONTROL_WRITE_OTHER_POSITION: a data byte at no command address (R141). -/
  | controlWriteOtherPosition (h : Host) (b : Byte)
  /-- ALIAS_READ_BYTE (R144). -/
  | aliasReadByte (h : Host)
  /-- ALIAS_WRITE_END: STOP or repeated start (R51). -/
  | aliasWriteEnd (h : Host)
  /-- ALIAS_READ_END: STOP or repeated start (R145). -/
  | aliasReadEnd (h : Host)
  /-- CONTROL_READ_END: STOP or repeated start (R161). -/
  | controlReadEnd (h : Host)
  | defineEntry (h : Host) (ps : List Byte)
  | leaveEntry (h : Host) (ps : List Byte)
  | queryEntry (h : Host) (ps : List Byte)
  | setWatch (h : Host) (ps : List Byte)
  | clearWatch (h : Host) (ps : List Byte)
  | setNotify (h : Host) (ps : List Byte)
  | setAlias (h : Host) (ps : List Byte)
  | clearAlias (h : Host) (ps : List Byte)
  | fetch (h : Host) (ps : List Byte)
  | drain (h : Host) (ps : List Byte)
  | claim (h : Host) (ps : List Byte)
  | renew (h : Host) (ps : List Byte)
  | unclaim (h : Host) (ps : List Byte)
  | queryNode (h : Host) (ps : List Byte)
  | queryLink (h : Host) (ps : List Byte)
  | clearHost (h : Host) (ps : List Byte)
  | setClassPeriod (h : Host) (ps : List Byte)
  | setLinkTiming (h : Host) (ps : List Byte)
  | linkStart (h : Host) (ps : List Byte)
  | linkStop (h : Host) (ps : List Byte)
  | pinNode (h : Host) (ps : List Byte)
  | unpinNode (h : Host) (ps : List Byte)
  /-- CONTROL_WRITE_DATA_BYTE: a data byte at a command address (R141). -/
  | controlWriteDataByte (h : Host) (b : Byte)
  /-- CONTROL_READ_BYTE (R138, R147). -/
  | controlReadByte (h : Host)
  deriving DecidableEq, Repr

end Sys2Proof
end

