-- ==== Sys2Proof/Decode.lean ====
section
/-!
DEFINITION. Reading a command from a table word: no row of spec/opcode_table.json gives bits, so no word spells a command.
-/

namespace Sys2Proof

/-- The command a word of `nbits` bits spells by the table's bits: none, since every row's list of fields is empty. -/
def decodeTableWord (_nbits _w : Nat) : Option Instr := none

end Sys2Proof
end

