-- ==== Sys2Proof/Config.lean ====
section
/-!
DEFINITION. The choices the manual leaves open, as constants without a body: nothing can be proved of their values.
-/

namespace Sys2Proof

/-- FREE VALUE (notes/assumptions/5). Where two owners act on one change independently and the manual says that either may reach a
shared host event queue first (R60, R80, R81, R104, R159), the n-th such case of a run is taken with the first named
owner first when this is true. -/
opaque Config.firstOwnerFirst : Nat → Bool

/-- FREE VALUE (notes/assumptions/16). When a request ends while its copy is the next to be sent, the manual's rules do not say
whether the transmitter has begun that copy, which it then sends whole (R97, R119): in the n-th such case of a run it
has begun when this is true. -/
opaque Config.copyBegun : Nat → Bool

end Sys2Proof
end

