-- ==== Sys2Proof/Machine/State.lean ====
section
/-!
DEFINITION. The state of the JL408 as plain data: every record and field the manual names, block by block, with its value
after reset. Derived quantities (an entry's "has data" and effective class, the interrupt lines) are functions of these
fields and stand in Machine/Ops.lean and Machine/Mirror.lean.
-/

namespace Sys2Proof.Machine

/-! ## The names of Chapter 11 (R171); their codes are in Machine/Flags.lean -/

/-- Status codes of a command's result (R154, R171). -/
inductive Status
  | ok | updated | joined | accepted | granted | waiting
  | busy | notPermitted | badParam | tableFull | overlap | notFound | notHolder | duplicateAlias
  | linkNotUp | nodeNotPresent | alreadyHeld | alreadyWaiting
  deriving DecidableEq, Repr

/-- Reason and outcome codes: request and write outcomes, fault reasons, departure reasons (R171). -/
inductive Reason
  | none | ok | refused | badAddress | busy | timeout | linkDown | stopped | nodeLost | nodeRestarted
  | quarantined | tooLong | noPartner | errors | silent | granted | ident | pin
  deriving DecidableEq, Repr

/-- Event kinds; the NONE record of an empty queue is no record (R159, R161, R171). -/
inductive EventKind
  | writeFailed | fetchDone | drainDone | claimGranted | claimExpired
  | entryFailed | entryRecovered | entryStale | watch
  | nodeArrived | nodeChanged | nodeQuarantined | nodeRestarted | nodeLost | linkUp | linkDown | overflow
  deriving DecidableEq, Repr

/-- A requested or effective class: C0 to C3, or NOTICE (R5, R30). -/
inductive RateClass
  | timed (c : Fin 4)
  | notice
  deriving DecidableEq, Repr

/-- The five entry states (section 1.2). -/
inductive EntryState
  | unfilled | valid | stale | failed | suspended
  deriving DecidableEq, Repr

/-- Where an entry's poll stands (R8). -/
inductive PollPhase
  | idle | queued | inFlight
  deriving DecidableEq, Repr

/-- The zone of a watch (R164, R165). -/
inductive Zone
  | unknown | below | inside | above
  deriving DecidableEq, Repr

/-- The presence of a node (section 5.2). -/
inductive Presence
  | unknown | identifying | present | absent | quarantined
  deriving DecidableEq, Repr

/-- Why an ident was started (R82). -/
inductive IdentCause
  | enumeration | found | restart | lift
  deriving DecidableEq, Repr

/-- The states of a link (section 6.3). -/
inductive LinkState
  | off | training | enumerating | up | down
  deriving DecidableEq, Repr

/-- The four states of a write record (R45). -/
inductive WriteState
  | reserved | queued | outstanding | held
  deriving DecidableEq, Repr

/-- The two classes of waiting request (R113, R114). -/
inductive RequestClass
  | write | read
  deriving DecidableEq, Repr

/-- Whether a copy of a request's frame waits for the transmitter or has been sent (R112). -/
inductive FrameState
  | toSend | sent
  deriving DecidableEq, Repr

/-- Whether alias writes are accepted at all (R135). -/
inductive Access
  | readOnly | readWrite
  deriving DecidableEq, Repr

/-- The outcome field of a read report (R145). -/
inductive ReportOutcome
  | none | served | refused
  deriving DecidableEq, Repr

/-! ## Chapter 1: the Mirror Table -/

/-- A holder's watch (R5, R164). -/
structure Watch where
  low : Word32
  high : Word32
  zone : Zone
  deriving DecidableEq, Repr

/-- One host's holder record (R5); the host number is its place in `Entry.holders`. -/
structure Holder where
  cls : RateClass
  watch : Option Watch
  deriving DecidableEq, Repr

/-- The fields of an in-use slot (R2). `data` holds one item per register, `none` while its stored mark is clear (R3), so
the entry's length is the length of this list. -/
structure Entry where
  node : Node
  first : Word16
  data : List (Option Byte)
  state : EntryState
  age : Word16
  epoch : Word16
  phase : PollPhase
  repoll : Bool
  fault : Reason
  skipped : Byte
  holders : Vector (Option Holder) 3
  deriving DecidableEq, Repr

/-- A slot keeps its generation free and in use; it is free when it holds no entry (R2, R4). -/
structure Slot where
  generation : Byte
  entry : Option Entry
  deriving DecidableEq, Repr

/-! ## Chapter 2: the Poll Scheduler -/

/-- An item of a poll queue (R35). -/
structure PollItem where
  slot : SlotIx
  generation : Byte
  deriving DecidableEq, Repr

/-- MODEL'S OWN FIELD (notes/assumptions/1): which parts of the millisecond event of the present count are still to be taken.
The manual makes each part a step of its own (R33, R41, R72, R101, R103, R106) of one event (R29). -/
structure EventParts where
  stale : Bool
  ticks : Bool
  leases : Bool
  deadline : Vector Bool 2
  holdOff : Vector Bool 2
  silence : Vector Bool 2
  deriving DecidableEq, Repr

/-! ## Chapter 3: the write queues -/

/-- A write record (R45); its length is the length of `data`. `covered` is the DRAIN mark of R61. -/
structure WriteRecord where
  origin : Host
  reported : Bool
  seq : Option Word16
  node : Node
  address : Word16
  data : List Byte
  state : WriteState
  lapse : Option Reason
  covered : Bool
  deriving DecidableEq, Repr

/-- A write queue: the RESERVED records, which have no place in the order yet, and the taken records, oldest first
(R45). -/
structure WriteQueue where
  reserved : List WriteRecord
  order : List WriteRecord
  deriving DecidableEq, Repr

/-- A pending DRAIN (R61). -/
structure DrainRecord where
  counter : Word16
  covered : Nat
  failed : Nat
  deriving DecidableEq, Repr

/-! ## Chapter 4: the Claim Unit -/

/-- The holder part of a claim record (R64). -/
structure Holding where
  host : Host
  lease : Byte
  leaseEnd : Word32
  deriving DecidableEq, Repr

/-- An item of a wait list (R64). -/
structure Waiter where
  host : Host
  lease : Byte
  deriving DecidableEq, Repr

/-- One node's claim record, the wait list oldest first (R64). -/
structure ClaimRecord where
  holder : Option Holding
  waiters : List Waiter
  deriving DecidableEq, Repr

/-! ## Chapter 5: the Node Directory -/

/-- The identity part of a node record, with the max length and "sends notices" that come with it (R78). -/
structure Identity where
  vendor : Word16
  model : Word16
  revision : Byte
  maxLength : Nat
  sendsNotices : Bool
  deriving DecidableEq, Repr

/-- A pin (R78, R92). -/
structure Pin where
  vendor : Word16
  model : Word16
  deriving DecidableEq, Repr

/-- A node record (R78). -/
structure NodeRecord where
  presence : Presence
  cause : Option IdentCause
  identity : Option Identity
  noticeCount : BitVec 4
  pin : Option Pin
  timeouts : Nat
  deriving DecidableEq, Repr

/-! ## Chapter 6: the link controllers -/

/-- A link record (R96). `activity` is the line activity since the previous millisecond event, which R103 judges; `received`
are the bytes received beyond the last frame that was judged, with which the next frame begins (R173). -/
structure LinkRecord where
  state : LinkState
  lastReason : Reason
  stamp : Word16
  timeout : Byte
  retryLimit : Nat
  autoRestart : Bool
  badFrames : Word16
  retries : Word16
  timeouts : Word16
  strays : Word16
  consecutiveBad : Nat
  syncRun : Nat
  deadline : Option Word32
  holdOff : Option Word32
  silence : Nat
  activity : Bool
  received : List Byte
  deriving DecidableEq, Repr

/-! ## Chapter 7: the link request arbiters -/

/-- The kind-specific part of a request in flight (R112). The write part of a WRITE is the OUTSTANDING record of the
request's node, of which there is one (R53, R54, notes/assumptions/17). -/
inductive RequestKind
  | poll (slot : SlotIx) (generation : Byte) (epoch : Word16)
  | fetch (host : Host) (ticket : Byte) (reported : Bool)
  | write
  | ident
  deriving DecidableEq, Repr

/-- The response timeout and retry limit a request takes when its first copy is sent (R107, R112). -/
structure RetrySettings where
  timeout : Byte
  retryLimit : Nat
  deriving DecidableEq, Repr

/-- A request in flight (R112); tag and round stand in its `TagRecord`. -/
structure Request where
  kind : RequestKind
  node : Node
  address : Word16
  length : Nat
  settings : Option RetrySettings
  retriesUsed : Nat
  frame : FrameState
  sentOnce : Bool
  timer : Option Byte
  deriving DecidableEq, Repr

/-- A tag: its round and the request that holds it, if it is in use (R111). -/
structure TagRecord where
  round : BitVec 2
  request : Option Request
  deriving DecidableEq, Repr

/-- An item of a pending fetch list (R127, R128). -/
structure FetchItem where
  host : Host
  ticket : Byte
  node : Node
  address : Word16
  length : Nat
  reported : Bool
  deriving DecidableEq, Repr

/-- A link request arbiter: its tags, pending IDENTs and fetches oldest first, the next-class mark, the transmitter's
order of request copies waiting to be sent (R116), the frame that was begun before its request ended and is being sent
whole (R97), and the last frame whose last byte was sent, a REQUEST or a SYNC (what the TX pair showed, R97, R173; what it
shows next is `State.transmits`). -/
structure Arbiter where
  tags : Vector TagRecord 8
  idents : List Node
  fetches : List FetchItem
  nextClass : RequestClass
  txOrder : List Tag
  onLine : Option (List Byte)
  sentFrame : List Byte
  deriving DecidableEq, Repr

/-- A held result of a fetch buffer (R129). -/
structure FetchResult where
  ticket : Byte
  status : Reason
  node : Node
  address : Word16
  length : Nat
  data : List Byte
  deriving DecidableEq, Repr

/-! ## Chapters 8 to 10: the host ports and the Event Unit -/

/-- An in-use alias slot (R135). -/
structure AliasSlot where
  address : BitVec 7
  node : Node
  base : Word16
  size : Nat
  access : Access
  strict : Bool
  deriving DecidableEq, Repr

/-- A read report (R145); `worst = none` is the worst state NONE. -/
structure ReadReport where
  outcome : ReportOutcome
  slot : AliasIx
  first : Word16
  bytesRead : Word16
  fillBytes : Word16
  worst : Option EntryState
  oldest : Word16
  touched : Nat
  deriving DecidableEq, Repr

/-- A result record (R151). -/
structure ResultRecord where
  number : Byte
  address : Byte
  status : Status
  values : List Byte
  deriving DecidableEq, Repr

/-- An event record (R158). The reason byte is a reason code, or a zone code in a WATCH record. -/
structure EventRecord where
  kind : EventKind
  number : Byte
  subject : Byte
  reason : Byte
  value : Word16
  detail : Option (Word16 × Byte)
  stamp : Word16
  deriving DecidableEq, Repr

/-- One entry of an alias read's snapshot (R143). -/
structure SnapshotEntry where
  first : Word16
  data : List (Option Byte)
  state : EntryState
  age : Word16
  deriving DecidableEq, Repr

/-- The copy of the five read areas that a control window read is served from (R147). -/
structure ControlCopy where
  result : ResultRecord
  event : Option EventRecord
  report : ReadReport
  fetch : Option FetchResult
  port : Host
  controlAddress : BitVec 7
  setupHost : Host
  deriving DecidableEq, Repr

/-- How far an alias write whose address byte was acknowledged has come (R139, R140). -/
inductive AliasWritePhase
  | register
  | data (position : Nat)
  | refused
  deriving DecidableEq, Repr

/-- The transaction open on a host port (R132). `ignored` is one the part takes no part in (R134, R48, R142). -/
inductive Transaction
  | idle
  | ignored
  | controlWrite (register : Option Byte) (bytes : List Byte)
  | controlRead (start : Byte) (copy : ControlCopy) (sent : Nat)
  | aliasWrite (slot : AliasIx) (window : AliasSlot) (phase : AliasWritePhase)
  | aliasRead (slot : AliasIx) (window : AliasSlot) (start : Byte) (snapshot : List SnapshotEntry) (sent fill : Nat)
  deriving DecidableEq, Repr

/-- What the port put on its bus at the last byte: an acknowledgement, a refusal, or a byte of a read (SDAn). -/
inductive BusAnswer
  | none
  | ack
  | nack
  | byte (b : Byte)
  deriving DecidableEq, Repr

/-- What the part keeps for one host: the port's state (Chapter 8), the result record (R151), the fetch buffer (R129),
the counters and drain record (R47, R61, R127), the event queue and notify settings (Chapter 10). `countedApart` is the
count R161 keeps while an OVERFLOW record is being read. -/
structure HostState where
  aliases : Vector (Option AliasSlot) 8
  pointer : Byte
  report : ReadReport
  fetchBuffer : Option FetchResult
  result : ResultRecord
  transaction : Transaction
  answer : BusAnswer
  seqCounter : Word16
  ticketCounter : Byte
  drain : Option DrainRecord
  events : List EventRecord
  eventCounter : Byte
  countedApart : Byte
  notifyEnable : Bool
  mask : Word16
  deriving DecidableEq, Repr

/-- The whole part. `choices` is the MODEL'S OWN counter of the free order choices (notes/assumptions/5); `pending` is the queue
of commands that wait, first in, first out. -/
structure State where
  timeBase : Word32
  due : EventParts
  periods : Vector Word16 4
  slots : Vector Slot 48
  pollQueues : Vector (List PollItem) 2
  writeQueues : Vector WriteQueue 2
  claims : Vector ClaimRecord 8
  nodes : Vector NodeRecord 8
  links : Vector LinkRecord 2
  arbiters : Vector Arbiter 2
  hosts : Vector HostState 3
  addrSel : Bool
  setupSel : BitVec 2
  choices : Nat
  pending : List Instr
  deriving DecidableEq, Repr

/-- The reasons the part stops with a fault: none. Every row of the table has an effect in every state, and the manual
describes no fault that stops the part. -/
inductive Fault
  deriving DecidableEq, Repr

/-- The reasons a command has no meaning. -/
inductive Refusal
  /-- Raised only by an arm of `exec` whose command has no meaning yet; safe (the model stops). -/
  | notModelled (mnemonic : String)
  deriving DecidableEq, Repr

/-! ## Reset -/

/-- No part of a millisecond event is open: the reset moment is no millisecond event (R29). -/
def EventParts.noneDue : EventParts :=
  { stale := false, ticks := false, leases := false, deadline := Vector.replicate 2 false,
    holdOff := Vector.replicate 2 false, silence := Vector.replicate 2 false }

/-- Every part of a millisecond event is still to be taken. -/
def EventParts.allDue : EventParts :=
  { stale := true, ticks := true, leases := true, deadline := Vector.replicate 2 true,
    holdOff := Vector.replicate 2 true, silence := Vector.replicate 2 true }

/-- The empty read report (R145). -/
def ReadReport.empty : ReadReport :=
  { outcome := .none, slot := 0, first := 0, bytesRead := 0, fillBytes := 0, worst := none, oldest := 0, touched := 0 }

/-- R78: a node record after reset. -/
def NodeRecord.reset : NodeRecord :=
  { presence := .unknown, cause := none, identity := none, noticeCount := 0, pin := none, timeouts := 0 }

/-- R96: a link record after reset (the column "After reset"). -/
def LinkRecord.reset : LinkRecord :=
  { state := .off, lastReason := .none, stamp := 0, timeout := 20, retryLimit := 3, autoRestart := false,
    badFrames := 0, retries := 0, timeouts := 0, strays := 0, consecutiveBad := 0, syncRun := 0,
    deadline := none, holdOff := none, silence := 0, activity := false,
    received := [] }

/-- R111, R131: an arbiter after reset. -/
def Arbiter.reset : Arbiter :=
  { tags := Vector.replicate 8 { round := 0, request := none }, idents := [], fetches := [], nextClass := .write,
    txOrder := [], onLine := none, sentFrame := [] }

/-- R47, R129, R131, R138, R148, R149, R163, R167: what the part keeps for a host after reset. -/
def HostState.reset : HostState :=
  { aliases := Vector.replicate 8 none, pointer := 0, report := ReadReport.empty, fetchBuffer := none,
    result := { number := 0, address := 0, status := .ok, values := [] }, transaction := .idle, answer := .none,
    seqCounter := 0, ticketCounter := 0, drain := none, events := [], eventCounter := 0, countedApart := 0,
    notifyEnable := false, mask := 0 }

/-- The part after a reset at which the strap pins were sampled as given (R133), with the commands that wait. -/
def State.resetWith (addrSel : Bool) (setupSel : BitVec 2) (choices : Nat) (pending : List Instr) : State :=
  { timeBase := 0
    due := EventParts.noneDue
    periods := #v[8, 32, 128, 1024]
    slots := Vector.replicate 48 { generation := 0, entry := none }
    pollQueues := Vector.replicate 2 []
    writeQueues := Vector.replicate 2 { reserved := [], order := [] }
    claims := Vector.replicate 8 { holder := none, waiters := [] }
    nodes := Vector.replicate 8 NodeRecord.reset
    links := Vector.replicate 2 LinkRecord.reset
    arbiters := Vector.replicate 2 Arbiter.reset
    hosts := Vector.replicate 3 HostState.reset
    addrSel := addrSel
    setupSel := setupSel
    choices := choices
    pending := pending }

/-- The machine right after reset. The straps are external pins: low on all three is a DESIGN CHOICE (notes/assumptions/2); the
RESET command samples any setting. -/
def State.reset : State := State.resetWith false 0 0 []

end Sys2Proof.Machine
end

