-- ==== Sys2Proof/Machine/Flags.lean ====
section
/-!
DEFINITION. The code values of Chapter 11 (R171), the mask bits of the event kinds (R159, R170), and the order of entry
states from best to worst (R145).
-/

namespace Sys2Proof.Machine

/-- R171, code set "Status". -/
def Status.code : Status → Byte
  | .ok => 0x00 | .updated => 0x01 | .joined => 0x02 | .accepted => 0x03 | .granted => 0x04 | .waiting => 0x05
  | .busy => 0x10 | .notPermitted => 0x11 | .badParam => 0x12 | .tableFull => 0x13 | .overlap => 0x14
  | .notFound => 0x15 | .notHolder => 0x16 | .duplicateAlias => 0x17 | .linkNotUp => 0x18
  | .nodeNotPresent => 0x19 | .alreadyHeld => 0x1A | .alreadyWaiting => 0x1B

/-- R171, code set "Reason and outcome". -/
def Reason.code : Reason → Byte
  | .none => 0x00 | .ok => 0x01 | .refused => 0x02 | .badAddress => 0x03 | .busy => 0x04 | .timeout => 0x05
  | .linkDown => 0x06 | .stopped => 0x07 | .nodeLost => 0x08 | .nodeRestarted => 0x09 | .quarantined => 0x0A
  | .tooLong => 0x0B | .noPartner => 0x0C | .errors => 0x0D | .silent => 0x0E | .granted => 0x0F
  | .ident => 0x10 | .pin => 0x11

/-- R171, code set "Event kind" (0x00 is the NONE of an empty queue). -/
def EventKind.code : EventKind → Byte
  | .writeFailed => 0x01 | .fetchDone => 0x02 | .drainDone => 0x03 | .claimGranted => 0x04 | .claimExpired => 0x05
  | .entryFailed => 0x06 | .entryRecovered => 0x07 | .entryStale => 0x08 | .watch => 0x09 | .nodeArrived => 0x0A
  | .nodeChanged => 0x0B | .nodeQuarantined => 0x0C | .nodeRestarted => 0x0D | .nodeLost => 0x0E | .linkUp => 0x0F
  | .linkDown => 0x10 | .overflow => 0x11

/-- R159 and R170: the mask bit of a maskable kind, `none` for an unmaskable one. -/
def EventKind.maskBit : EventKind → Option Nat
  | .entryFailed => some 0 | .entryRecovered => some 1 | .entryStale => some 2 | .watch => some 3
  | .nodeArrived => some 4 | .nodeChanged => some 5 | .nodeQuarantined => some 6 | .nodeRestarted => some 7
  | .nodeLost => some 8 | .linkUp => some 9 | .linkDown => some 10
  | .writeFailed => none | .fetchDone => none | .drainDone => none | .claimGranted => none | .claimExpired => none
  | .overflow => none

/-- R171, code set "Class". -/
def RateClass.code : RateClass → Byte
  | .timed c => BitVec.ofNat 8 c.val
  | .notice => 4

/-- R171, code set "Entry state". -/
def EntryState.code : EntryState → Byte
  | .unfilled => 1 | .valid => 2 | .stale => 3 | .failed => 4 | .suspended => 5

/-- R145: the order of entry states from best (1) to worst (5); NONE ranks below all. -/
def EntryState.rank : EntryState → Nat
  | .valid => 1 | .stale => 2 | .unfilled => 3 | .failed => 4 | .suspended => 5

/-- R171, code set "Poll phase". -/
def PollPhase.code : PollPhase → Byte
  | .idle => 0 | .queued => 1 | .inFlight => 2

/-- R171, code set "Zone". -/
def Zone.code : Zone → Byte
  | .unknown => 0 | .below => 1 | .inside => 2 | .above => 3

/-- R171, code set "Presence". -/
def Presence.code : Presence → Byte
  | .unknown => 0 | .identifying => 1 | .present => 2 | .absent => 3 | .quarantined => 4

/-- R171, code set "Ident cause"; `none` is 0. -/
def identCauseCode : Option IdentCause → Byte
  | none => 0
  | some .enumeration => 1
  | some .found => 2
  | some .restart => 3
  | some .lift => 4

/-- R171, code set "Link state". -/
def LinkState.code : LinkState → Byte
  | .off => 0 | .training => 1 | .enumerating => 2 | .up => 3 | .down => 4

/-- R171, code set "Read report outcome". -/
def ReportOutcome.code : ReportOutcome → Byte
  | .none => 0 | .served => 1 | .refused => 2

/-- R170: the SET_ALIAS access codes. -/
def Access.ofByte (b : Byte) : Option Access :=
  if b = 0x00 then some .readOnly else if b = 0x01 then some .readWrite else none

/-- R171, code set "Class", read from a parameter (R168: a code of no name is out of range). -/
def RateClass.ofByte (b : Byte) : Option RateClass :=
  if h : b.toNat < 4 then some (.timed ⟨b.toNat, h⟩) else if b = 4 then some .notice else none

/-- R173: the status byte of a RESPONSE. -/
def responseStatus (b : Byte) : Option Reason :=
  if b = 0x00 then some .ok
  else if b = 0x01 then some .refused
  else if b = 0x02 then some .badAddress
  else if b = 0x03 then some .busy
  else none

end Sys2Proof.Machine
end

