-- ==== Sys2Proof/Machine/Operands.lean ====
section
/-!
DEFINITION. The operand forms: node references, multi-byte values most significant byte first (R1, R168), packed bytes,
register ranges, and the places of nodes on their links.
-/

namespace Sys2Proof.Machine

/-! ## Nodes -/

/-- The link of a node (R1). -/
def nodeLink (n : Node) : Link := ⟨n.val / 4, by omega⟩

/-- The node address, 1 to 4 (R1). -/
def nodeAddress (n : Node) : Nat := n.val % 4 + 1

/-- The node with address `a` on link `l`, if `a` is 1 to 4. -/
def nodeAt (l : Link) (a : Nat) : Option Node :=
  if h : 1 ≤ a ∧ a ≤ 4 then some ⟨4 * l.val + (a - 1), by omega⟩ else none

/-- The four nodes of a link in ascending node address. -/
def linkNodes (l : Link) : List Node := (List.finRange 8).filter fun n => nodeLink n = l

/-- The node reference byte: link in the high four bits, node address in the low four (R1). -/
def nodeRef (n : Node) : Byte := BitVec.ofNat 8 (16 * (nodeLink n).val + nodeAddress n)

/-- The node a reference byte names, if it names link 0 or 1 and node address 1 to 4 (R1). -/
def nodeOfRef (b : Byte) : Option Node :=
  if h : b.toNat / 16 < 2 then nodeAt ⟨b.toNat / 16, h⟩ (b.toNat % 16) else none

/-- The link a parameter byte names (R100, R105, R107, R109). -/
def linkOfByte (b : Byte) : Option Link :=
  if h : b.toNat < 2 then some ⟨b.toNat, h⟩ else none

/-- The Mirror Table slot a parameter byte names (R13, R15). -/
def slotOfByte (b : Byte) : Option SlotIx :=
  if h : b.toNat < 48 then some ⟨b.toNat, h⟩ else none

/-- The alias slot a parameter byte names (R136, R137). -/
def aliasIxOfByte (b : Byte) : Option AliasIx :=
  if h : b.toNat < 8 then some ⟨b.toNat, h⟩ else none

/-- A flag parameter: 0 is off or no, 1 is on or yes (R107, R136, R163). -/
def flagOfByte (b : Byte) : Option Bool :=
  if b = 0 then some false else if b = 1 then some true else none

/-! ## Multi-byte values, most significant byte first -/

/-- The number two bytes carry. -/
def word16 (hi lo : Byte) : Word16 := hi ++ lo

/-- The number four bytes carry. -/
def word32 (b3 b2 b1 b0 : Byte) : Word32 := (b3 ++ b2 : Word16) ++ (b1 ++ b0 : Word16)

/-- The two bytes of a number, most significant first. -/
def bytes16 (w : Word16) : List Byte := [w.extractLsb' 8 8, w.extractLsb' 0 8]

/-- A small count as one byte. -/
def byteOf (n : Nat) : Byte := BitVec.ofNat 8 n

/-- A flag as one byte. -/
def byteOfBool (b : Bool) : Byte := if b then 1 else 0

/-- A packed byte: `lo` in bits 0 to 3, `hi` in bits 4 to 7 (R172). -/
def nibbles (lo hi : Byte) : Byte := (hi.setWidth 4) ++ (lo.setWidth 4)

/-- The low 16 bits of the time base count (R168). -/
def low16 (w : Word32) : Word16 := w.setWidth 16

/-- Bytes read in register order as one unsigned number, the first byte most significant (R165). -/
def numberOf (bs : List Byte) : Nat := bs.foldl (fun n b => 256 * n + b.toNat) 0

/-! ## Register ranges -/

/-- Two ranges of registers share at least one address. -/
def rangesShare (a la b lb : Nat) : Bool := decide (a < b + lb ∧ b < a + la)

/-- An address lies in a range. -/
def inRange (x a la : Nat) : Bool := decide (a ≤ x ∧ x < a + la)

/-- A range of 1 to 8 registers that does not pass 65535 (R1, R9, R127). -/
def rangeOk (first : Word16) (length : Byte) : Bool :=
  decide (1 ≤ length.toNat ∧ length.toNat ≤ 8 ∧ first.toNat + length.toNat - 1 ≤ 65535)

/-- Stored bytes laid over an entry's data: register `at` is the first of `old`, and the bytes `new` start at `addr`
(R22). -/
def overlay (new : List Byte) (addr : Nat) : Nat → List (Option Byte) → List (Option Byte)
  | _, [] => []
  | at', o :: old =>
    (if at' < addr then o else match new[at' - addr]? with | some b => some b | none => o)
      :: overlay new addr (at' + 1) old

/-! ## Strap pins -/

/-- The control address ADDR_SEL selects (R133). -/
def controlAddressOf (addrSel : Bool) : BitVec 7 := if addrSel then 0x3C#7 else 0x2C#7

/-- The setup host SETUP_SEL1 and SETUP_SEL0 select (R133). -/
def setupHostOf (setupSel : BitVec 2) : Host :=
  if setupSel = 1 then 1 else if setupSel = 2 then 2 else 0

end Sys2Proof.Machine
end

