-- ==== Sys2Proof/Machine/Ops.lean ====
section
/-!
DEFINITION. The named reads and updates of the state, one for each record, the orders of the fixed tables, and the free
order of two owners. Every block's rules are written over these.
-/

namespace Sys2Proof.Machine

/-! ## Updates of one record -/

/-- Change host `h`'s record. -/
def State.modHost (h : Host) (f : HostState → HostState) (s : State) : State := { s with hosts := upd s.hosts h f }

/-- R151: host `h`'s result record is replaced whole, with the next result number. -/
def State.withResult (h : Host) (address : Byte) (status : Status) (values : List Byte) (s : State) : State :=
  s.modHost h fun hs => { hs with result := ⟨incSkipZero hs.result.number, address, status, values⟩ }

/-- Change slot `i` of the Mirror Table. -/
def State.modSlot (i : SlotIx) (f : Slot → Slot) (s : State) : State := { s with slots := upd s.slots i f }

/-- Change the entry in slot `i`, if the slot is in use. -/
def State.modEntry (i : SlotIx) (f : Entry → Entry) (s : State) : State :=
  s.modSlot i fun sl => { sl with entry := sl.entry.map f }

/-- Change link `l`'s poll queue. -/
def State.modPolls (l : Link) (f : List PollItem → List PollItem) (s : State) : State :=
  { s with pollQueues := upd s.pollQueues l f }

/-- Change link `l`'s write queue. -/
def State.modWrites (l : Link) (f : WriteQueue → WriteQueue) (s : State) : State :=
  { s with writeQueues := upd s.writeQueues l f }

/-- Change node `n`'s claim record. -/
def State.modClaim (n : Node) (f : ClaimRecord → ClaimRecord) (s : State) : State :=
  { s with claims := upd s.claims n f }

/-- Change node `n`'s node record. -/
def State.modNode (n : Node) (f : NodeRecord → NodeRecord) (s : State) : State := { s with nodes := upd s.nodes n f }

/-- Change link `l`'s link record. -/
def State.modLink (l : Link) (f : LinkRecord → LinkRecord) (s : State) : State := { s with links := upd s.links l f }

/-- Change link `l`'s arbiter. -/
def State.modArbiter (l : Link) (f : Arbiter → Arbiter) (s : State) : State :=
  { s with arbiters := upd s.arbiters l f }

/-- Change tag `t` of an arbiter. -/
def Arbiter.modTag (t : Tag) (f : TagRecord → TagRecord) (a : Arbiter) : Arbiter := { a with tags := upd a.tags t f }

/-! ## Reads -/

/-- The entry in slot `i`, if the slot is in use. -/
def State.entry (s : State) (i : SlotIx) : Option Entry := (s.slots.get i).entry

/-- The state of link `l`. -/
def State.linkState (s : State) (l : Link) : LinkState := (s.links.get l).state

/-- The presence of node `n`. -/
def State.presence (s : State) (n : Node) : Presence := (s.nodes.get n).presence

/-- The request that holds tag `t` of link `l`, if the tag is in use. -/
def State.request (s : State) (l : Link) (t : Tag) : Option Request := ((s.arbiters.get l).tags.get t).request

/-- The control address selected at the last reset (R133). -/
def State.controlAddress (s : State) : BitVec 7 := controlAddressOf s.addrSel

/-- The setup host selected at the last reset (R133). -/
def State.setupHost (s : State) : Host := setupHostOf s.setupSel

/-- The interrupt line INTn: asserted (driven low) while the notify enable is on and the queue holds a record (R162). -/
def State.intAsserted (s : State) (h : Host) : Bool :=
  (s.hosts.get h).notifyEnable && !(s.hosts.get h).events.isEmpty

/-- The running states of a link (section 6.1). -/
def LinkState.running : LinkState → Bool
  | .training => true
  | .enumerating => true
  | .up => true
  | .off => false
  | .down => false

/-! ## The orders the manual names -/

/-- Apply `f` for every host, in ascending host number. -/
def forHosts (f : Host → State → State) (s : State) : State := (List.finRange 3).foldl (fun s h => f h s) s

/-- Apply `f` for every slot of the Mirror Table, in ascending index. -/
def forSlots (f : SlotIx → State → State) (s : State) : State := (List.finRange 48).foldl (fun s i => f i s) s

/-- Apply `f` for every slot in use whose entry `p` accepts, in ascending index, each judged when its turn comes. -/
def forEntries (p : Entry → Bool) (f : SlotIx → State → State) (s : State) : State :=
  forSlots (fun i s => match s.entry i with
    | none => s
    | some e => if p e then f i s else s) s

/-- Apply `f` for every tag of an arbiter, in ascending tag. -/
def forTags (f : Tag → State → State) (s : State) : State := (List.finRange 8).foldl (fun s t => f t s) s

/-- Apply `f` for every node place, in ascending node reference. -/
def forNodes (f : Node → State → State) (s : State) : State := (List.finRange 8).foldl (fun s n => f n s) s

/-- Two owners act independently on one change (R80, R81, R104, R159). Where `both` says that each of them hands something to a
shared event queue, which of them is first is a free value of Config; otherwise the order cannot be seen. -/
def eitherOrder (both : Bool) (first second : State → State) (s : State) : State :=
  if both then
    let s' := { s with choices := s.choices + 1 }
    if Config.firstOwnerFirst s.choices then second (first s') else first (second s')
  else second (first s)

end Sys2Proof.Machine
end

