-- ==== Sys2Proof/Machine/Frames.lean ====
section
/-!
DEFINITION. The frames of a link (R173): the CRC-16, the REQUEST frame the part sends, and the receiver's judgment of the bytes
it receives (R98, R99).
-/

namespace Sys2Proof.Machine

/-! ## The CRC-16 -/

/-- One bit of the CRC with generator polynomial 0x1021 (R173). -/
def crcBit (c : Word16) : Word16 := if c.msb then (c <<< 1) ^^^ 0x1021#16 else c <<< 1

/-- One byte, most significant bit first (R173). -/
def crcByte (c : Word16) (b : Byte) : Word16 :=
  crcBit (crcBit (crcBit (crcBit (crcBit (crcBit (crcBit (crcBit (c ^^^ (b.setWidth 16 <<< 8)))))))))

/-- R173: the CRC-16 with initial value 0xFFFF and no final inversion. -/
def crc16 (bs : List Byte) : Word16 := bs.foldl crcByte 0xFFFF#16

/-- The start marker (R173). -/
def startMarker : Byte := 0xA5

/-- A frame of a kind and body: start marker, header, body, CRC (R173). -/
def frameBytes (kind : Byte) (body : List Byte) : List Byte :=
  let covered := kind :: byteOf body.length :: body
  startMarker :: covered ++ bytes16 (crc16 covered)

/-! ## The REQUEST frame -/

/-- The request kind byte (R173). -/
def RequestKind.code : RequestKind → Byte
  | .poll _ _ _ => 0x01
  | .fetch _ _ _ => 0x01
  | .write => 0x02
  | .ident => 0x03

/-- The tag and round byte: tag in bits 0 to 2, round in bits 4 and 5 (R173). -/
def tagByte (t : Tag) (round : BitVec 2) : Byte := BitVec.ofNat 8 (t.val + 16 * round.toNat)

/-- R116, R173: the frame every copy of a request carries; `data` are the bytes of a WRITE. -/
def requestFrame (t : Tag) (round : BitVec 2) (r : Request) (data : List Byte) : List Byte :=
  frameBytes 0x02
    ([r.kind.code, tagByte t round, byteOf (nodeAddress r.node)] ++ bytes16 r.address ++ [byteOf r.length] ++ data)

/-! ## Received frames -/

/-- The bytes of a SYNC, which either end of a link sends between other frames (R97, R173). -/
def syncFrameBytes : List Byte := frameBytes 0x01 []

/-- The bytes of a RESPONSE (R173). -/
def responseFrameBytes (tag : Tag) (round : BitVec 2) (node status : Byte) (data : List Byte) : List Byte :=
  frameBytes 0x03 ([tagByte tag round, node, status] ++ data)

/-- The bytes of a NOTICE (R173). -/
def noticeFrameBytes (node count : Byte) (address : Word16) (length : Byte) : List Byte :=
  frameBytes 0x04 ([node, count] ++ bytes16 address ++ [length])

/-- The bytes of a HELLO (R173). -/
def helloFrameBytes (node : Byte) : List Byte := frameBytes 0x05 [node]

/-- A node address byte of a frame names a node of the link (R98). -/
def frameNode (l : Link) (node : Byte) : Option Node := nodeAt l node.toNat

/-- What the receiver makes of the next frame (R98, R99): bad, or a good frame of its kind with the fields of its body. -/
inductive Received
  | bad
  | sync
  | response (tag : Tag) (round : BitVec 2) (n : Node) (status : Reason) (data : List Byte)
  | notice (n : Node) (count : Byte) (address : Word16) (length : Byte)
  | hello (n : Node)
  deriving DecidableEq, Repr

/-- The kind byte of a good frame (R173); none for a bad one. -/
def Received.code : Received → Option Byte
  | .bad => none
  | .sync => some 0x01
  | .response _ _ _ _ _ => some 0x03
  | .notice _ _ _ _ => some 0x04
  | .hello _ => some 0x05

/-- R98, R173: the body of a RESPONSE: the tag and round byte, a node, a status, and 0 to 8 data bytes. -/
def judgeResponse (l : Link) (body : List Byte) : Received :=
  match body with
  | tr :: node :: status :: data =>
    match frameNode l node, responseStatus status with
    | some n, some st =>
      if data.length ≤ 8 then .response ⟨tr.toNat % 8, by omega⟩ (BitVec.ofNat 2 (tr.toNat / 16)) n st data else .bad
    | _, _ => .bad
  | _ => .bad

/-- R98, R173: the body of a NOTICE: a node, a count up to 15, an address, and a length of 1 to 16. -/
def judgeNotice (l : Link) (body : List Byte) : Received :=
  match body with
  | [node, count, a1, a0, length] =>
    match frameNode l node with
    | some n =>
      if count.toNat ≤ 15 ∧ 1 ≤ length.toNat ∧ length.toNat ≤ 16 then .notice n count (word16 a1 a0) length else .bad
    | none => .bad
  | _ => .bad

/-- R98, R173: the body of a HELLO: a node. -/
def judgeHello (l : Link) (body : List Byte) : Received :=
  match body with
  | [node] => match frameNode l node with
    | some n => .hello n
    | none => .bad
  | _ => .bad

/-- R98: a frame with the right CRC: a kind the part does not receive, a body length its kind does not allow, or a field
out of range makes it bad. -/
def judgeBody (l : Link) (kind : Byte) (body : List Byte) : Received :=
  if kind = 0x01 then (if body = [] then .sync else .bad)
  else if kind = 0x03 then judgeResponse l body
  else if kind = 0x04 then judgeNotice l body
  else if kind = 0x05 then judgeHello l body
  else .bad

/-- R98, R173: the receiver looks for the next start marker, reads the header, as many body bytes as its length gives, and
the CRC, and judges the frame; the bytes beyond it begin the next frame. Bytes that end before the frame is complete
are line activity that ended without one: a bad frame. -/
def receiveFrame (l : Link) (bytes : List Byte) : Received × List Byte :=
  match bytes.dropWhile fun b => b ≠ startMarker with
  | _ :: kind :: length :: rest =>
    let body := rest.take length.toNat
    match rest.drop length.toNat with
    | c1 :: c0 :: beyond =>
      (if word16 c1 c0 = crc16 (kind :: length :: body) then judgeBody l kind body else .bad, beyond)
    | _ => (.bad, [])
  | _ => (.bad, [])

end Sys2Proof.Machine
end

