-- ==== Sys2Proof/Machine/Events.lean ====
section
/-!
DEFINITION. The Event Unit: handing an event to a host's queue, broadcasts, and the removal of a record that was read
(R158 to R161).
-/

namespace Sys2Proof.Machine

/-- What the producing rule gives an event (the table of R159); number and time stamp come with the storing. -/
structure EventBody where
  kind : EventKind
  subject : Byte
  reason : Byte
  value : Word16
  detail : Option (Word16 × Byte)
  deriving DecidableEq, Repr

/-- An event with no detail. -/
def eventOf (kind : EventKind) (subject reason : Byte) (value : Word16) : EventBody :=
  { kind := kind, subject := subject, reason := reason, value := value, detail := none }

/-- A record is an OVERFLOW record. -/
def EventRecord.isOverflow (r : EventRecord) : Bool := decide (r.kind = .overflow)

/-- The host's mask names the kind (R160, R170). -/
def maskedBy (mask : Word16) (k : EventKind) : Bool :=
  match k.maskBit with
  | none => false
  | some i => mask.getLsbD i

/-- The record made of an event (R158). -/
def EventBody.record (b : EventBody) (number : Byte) (stamp : Word16) : EventRecord :=
  { kind := b.kind, number := number, subject := b.subject, reason := b.reason, value := b.value, detail := b.detail,
    stamp := stamp }

/-- An OVERFLOW record at its creation (R160, R161). -/
def overflowRecord (count : Byte) (number : Byte) (stamp : Word16) : EventRecord :=
  { kind := .overflow, number := number, subject := 0, reason := 0, value := count.setWidth 16, detail := none,
    stamp := stamp }

/-- One more event counted into an OVERFLOW record, whose value stops at 255 (R160). -/
def countInto (r : EventRecord) : EventRecord := if r.value < 255#16 then { r with value := r.value + 1 } else r

/-- An open control window read has copied the host's OVERFLOW record (R161). -/
def copiedOverflow (t : Transaction) : Bool :=
  match t with
  | .controlRead _ copy _ => copy.event.any EventRecord.isOverflow
  | .idle => false
  | .ignored => false
  | .controlWrite _ _ => false
  | .aliasWrite _ _ _ => false
  | .aliasRead _ _ _ _ _ _ => false

/-- R160: an event arrives for a host at the given low 16 bits of the time base count. -/
def HostState.receive (stamp : Word16) (b : EventBody) (hs : HostState) : HostState :=
  if maskedBy hs.mask b.kind then hs
  else if hs.events.any EventRecord.isOverflow then
    { hs with
      events := hs.events.map fun r => if r.isOverflow then countInto r else r
      countedApart := if copiedOverflow hs.transaction then satInc hs.countedApart else hs.countedApart }
  else if hs.events.length < 15 then
    { hs with events := hs.events ++ [b.record (hs.eventCounter + 1) stamp], eventCounter := hs.eventCounter + 1 }
  else
    { hs with events := hs.events ++ [overflowRecord 1 (hs.eventCounter + 1) stamp],
              eventCounter := hs.eventCounter + 1 }

/-- Hand an event to host `h`'s queue. -/
def notify (h : Host) (b : EventBody) (s : State) : State :=
  s.modHost h (HostState.receive (low16 s.timeBase) b)

/-- Hand an event to hosts 0, 1 and 2, in ascending host number (R159). -/
def broadcast (b : EventBody) (s : State) : State := forHosts (fun h => notify h b) s

/-- R161: the end of a control window read that copied a record and sent the whole EVENT area. The record copied is the
oldest; losses counted since an OVERFLOW record was copied start a new one. -/
def HostState.removeRead (stamp : Word16) (copied : EventRecord) (hs : HostState) : HostState :=
  if copied.isOverflow && decide (hs.countedApart ≠ 0) then
    { hs with events := [overflowRecord hs.countedApart (hs.eventCounter + 1) stamp],
              eventCounter := hs.eventCounter + 1 }
  else { hs with events := hs.events.tail }

end Sys2Proof.Machine
end

