-- ==== Sys2Proof/Machine/Mirror.lean ====
section
/-!
DEFINITION. The Mirror Table and the part of the Poll Scheduler that acts on entries: effective classes and stale limits,
poll queues, poll endings, write outcomes, notices, presence changes, watches, holders (Chapters 1, 2 and section 10.5).
-/

namespace Sys2Proof.Machine

/-! ## Derived fields of an entry -/

/-- The number of registers an entry mirrors. -/
def Entry.length (e : Entry) : Nat := e.data.length

/-- "Has data": every data byte is stored (R3). -/
def Entry.hasData (e : Entry) : Bool := e.data.all Option.isSome

/-- Host `h` holds the entry (R5). -/
def Entry.heldBy (e : Entry) (h : Host) : Bool := (e.holders.get h).isSome

/-- The number of holders. -/
def Entry.holderCount (e : Entry) : Nat := ((List.finRange 3).filter fun h => e.heldBy h).length

/-- The entry covers a remote register of its node. -/
def Entry.covers (e : Entry) (address : Nat) : Bool := inRange address e.first.toNat e.length

/-- FAILED with reason TOO_LONG (R26). -/
def Entry.tooLong (e : Entry) : Bool := decide (e.state = .failed ∧ e.fault = .tooLong)

/-- A range of a node's registers touches the entry (R7, R24). -/
def Entry.touchedBy (e : Entry) (n : Node) (address length : Nat) : Bool :=
  decide (e.node = n) && rangesShare address length e.first.toNat e.length

/-! ## Effective class and stale limit (R6) -/

/-- The classes the holders request, in ascending host number. -/
def Entry.requests (e : Entry) : List RateClass :=
  (List.finRange 3).filterMap fun h => (e.holders.get h).map Holder.cls

/-- The better of a class and the best so far: the shorter present period, then the lower class number (R6). -/
def fasterClass (periods : Vector Word16 4) (best : Option (Fin 4)) (c : Fin 4) : Option (Fin 4) :=
  match best with
  | none => some c
  | some b =>
    if periods.get c < periods.get b ∨ (periods.get c = periods.get b ∧ c < b) then some c else some b

/-- R6: the effective class of a list of requests, when the node does or does not send notices. -/
def effectiveClass (periods : Vector Word16 4) (sends : Bool) (requests : List RateClass) : RateClass :=
  let timed := requests.filterMap fun r => match r with
    | .timed c => some c
    | .notice => if sends then none else some 3
  match timed.foldl (fasterClass periods) none with
  | some c => .timed c
  | none => .notice

/-- "Sends notices" of a node, no while it has no identity (R6, R78). -/
def State.sendsNotices (s : State) (n : Node) : Bool := (s.nodes.get n).identity.any Identity.sendsNotices

/-- The max length of a node, 0 while it has no identity (no request is sent to it then, R78). -/
def State.maxLength (s : State) (n : Node) : Nat := ((s.nodes.get n).identity.map Identity.maxLength).getD 0

/-- The effective class of an entry at this moment (R6). -/
def State.effective (s : State) (e : Entry) : RateClass :=
  effectiveClass s.periods (s.sendsNotices e.node) e.requests

/-- The stale limit of an entry: three times the present period of its effective class, none for NOTICE (R6). -/
def State.staleLimit (s : State) (e : Entry) : Option Nat :=
  match s.effective e with
  | .timed c => some (3 * (s.periods.get c).toNat)
  | .notice => none

/-- A VALID entry whose age has reached its stale limit (R41, R42). -/
def State.pastLimit (s : State) (e : Entry) : Bool :=
  decide (e.state = .valid) && (s.staleLimit e).any fun limit => decide (limit ≤ e.age.toNat)

/-! ## Entry events and watches -/

/-- R27: an entry event to each holder, in ascending host number, with the slot index as its subject. -/
def entryEvent (i : SlotIx) (k : EventKind) (reason : Reason) (s : State) : State :=
  forHosts (fun h s => match s.entry i with
    | none => s
    | some e => if e.heldBy h then notify h (eventOf k (byteOf i.val) reason.code 0) s else s) s

/-- The zone of a number against a watch's band (R165). -/
def Watch.zoneOf (w : Watch) (x : Nat) : Zone :=
  if x < w.low.toNat then .below else if w.high.toNat < x then .above else .inside

/-- Replace host `h`'s holder record by what `f` makes of it. -/
def Entry.modHolder (h : Host) (f : Option Holder → Option Holder) (e : Entry) : Entry :=
  { e with holders := upd e.holders h f }

/-- R165: one holder's watch is evaluated. -/
def evaluateWatch (i : SlotIx) (h : Host) (s : State) : State :=
  match s.entry i with
  | none => s
  | some e =>
    match e.holders.get h with
    | none => s
    | some r =>
      match r.watch with
      | none => s
      | some w =>
        let zone := w.zoneOf (numberOf (e.data.filterMap id))
        if !e.hasData || decide (zone = w.zone) then s
        else
          let s' := s.modEntry i (Entry.modHolder h fun _ => some { r with watch := some { w with zone := zone } })
          if w.zone = .unknown ∧ zone = .inside then s'
          else notify h (eventOf .watch (byteOf i.val) w.zone.code (zone.code.setWidth 16)) s'

/-- R165: the watches of an entry, in ascending host number. -/
def evaluateWatches (i : SlotIx) (s : State) : State := forHosts (evaluateWatch i) s

/-! ## The stale check -/

/-- R41, R42: a VALID entry at or past its present stale limit becomes STALE, with ENTRY_STALE to its holders. -/
def meetLimit (i : SlotIx) (s : State) : State :=
  match s.entry i with
  | none => s
  | some e =>
    if s.pastLimit e then entryEvent i .entryStale .none (s.modEntry i fun e => { e with state := .stale }) else s

/-! ## Poll queues -/

/-- A poll may be queued for the entry: neither SUSPENDED nor FAILED with reason TOO_LONG (R8). -/
def Entry.pollable (e : Entry) : Bool := decide (e.state ≠ .suspended) && !e.tooLong

/-- R8, R36: a rule asks for a poll of the entry in slot `i`. -/
def queuePoll (i : SlotIx) (s : State) : State :=
  match s.entry i with
  | none => s
  | some e =>
    if decide (e.phase = .idle) && e.pollable then
      (s.modPolls (nodeLink e.node) (· ++ [{ slot := i, generation := (s.slots.get i).generation }])).modEntry i
        fun e => { e with phase := .queued }
    else s

/-- Take the item of slot `i` out of a poll queue, the others keeping their order (R37). -/
def dropPoll (i : SlotIx) (l : Link) (s : State) : State := s.modPolls l (·.filter fun item => item.slot ≠ i)

/-- R38: a link's poll queue is emptied, oldest first, and each removed entry becomes IDLE. -/
def emptyPollQueue (l : Link) (s : State) : State :=
  let items := s.pollQueues.get l
  (items.foldl (fun s item => s.modEntry item.slot fun e => { e with phase := .idle }) s).modPolls l fun _ => []

/-! ## Poll endings (section 1.4) -/

/-- R16: the check a poll ending must pass to be applied to its slot. -/
def pollApplies (s : State) (i : SlotIx) (generation : Byte) (n : Node) (address : Word16) (length : Nat) : Bool :=
  match s.entry i with
  | none => false
  | some e =>
    decide ((s.slots.get i).generation = generation ∧ e.node = n ∧ e.first = address ∧ e.length = length)

/-- R18: an accepted poll fill of the entry `e` in slot `i`. -/
def acceptFill (i : SlotIx) (e : Entry) (data : List Byte) (s : State) : State :=
  let s := s.modEntry i fun e =>
    { e with data := data.map some, age := 0, phase := .idle, repoll := false,
             state := if e.repoll then .stale else .valid }
  let s := if e.repoll then queuePoll i s else s
  let s := if e.state = .failed then entryEvent i .entryRecovered .none s else s
  evaluateWatches i s

/-- R20: a poll of the entry `e` in slot `i` failed. -/
def failPoll (i : SlotIx) (e : Entry) (outcome : Reason) (s : State) : State :=
  let s := s.modEntry i fun e => { e with state := .failed, fault := outcome, phase := .idle, repoll := false }
  let s := if e.state = .failed then s else entryEvent i .entryFailed outcome s
  if e.repoll then queuePoll i s else s

/-- R16 to R21: a poll ending handed over by the arbiter. -/
def applyPollEnding (i : SlotIx) (generation : Byte) (n : Node) (address : Word16) (length : Nat) (epoch : Word16)
    (outcome : Reason) (data : List Byte) (s : State) : State :=
  if !pollApplies s i generation n address length then s
  else
    match s.entry i with
    | none => s
    | some e =>
      if e.state = .suspended then s.modEntry i fun e => { e with phase := .idle, repoll := false }
      else
        match outcome with
        | .ok =>
          if e.epoch = epoch then acceptFill i e data s
          else queuePoll i (s.modEntry i fun e => { e with phase := .idle, repoll := false })
        | .refused | .badAddress | .timeout => failPoll i e outcome s
        | .busy | .linkDown | .stopped | .nodeLost | .nodeRestarted | .none | .quarantined | .tooLong | .noPartner
        | .errors | .silent | .granted | .ident | .pin =>
          let s := s.modEntry i fun e => { e with phase := .idle, repoll := false }
          if e.repoll then queuePoll i s else s

/-! ## Write outcomes (section 1.5) -/

/-- R22: a write that completed OK acts on one entry it touches. -/
def writeIntoEntry (address : Nat) (bytes : List Byte) (i : SlotIx) (s : State) : State :=
  match s.entry i with
  | none => s
  | some e =>
    let covering := decide (address ≤ e.first.toNat ∧ e.first.toNat + e.length ≤ address + bytes.length)
    let revives := covering && e.pollable
    let s := s.modEntry i fun e =>
      { e with data := overlay bytes address e.first.toNat e.data, epoch := e.epoch + 1,
               age := if covering then 0 else e.age, state := if revives then .valid else e.state }
    let s := if revives && decide (e.state = .failed) then entryEvent i .entryRecovered .none s else s
    evaluateWatches i s

/-- R22: a write that completed OK acts on every entry it touches, in ascending index. -/
def mirrorWriteOk (n : Node) (address : Word16) (bytes : List Byte) (s : State) : State :=
  forEntries (fun e => e.touchedBy n address.toNat bytes.length) (writeIntoEntry address.toNat bytes) s

/-- R23: a failed write acts on one entry it touches. -/
def failWriteOnEntry (i : SlotIx) (s : State) : State :=
  queuePoll i (s.modEntry i fun e =>
    { e with epoch := e.epoch + 1, state := if e.state = .valid then .stale else e.state })

/-- R23: a failed write acts on every entry it touches, in ascending index. -/
def mirrorWriteFailed (n : Node) (address : Word16) (length : Nat) (s : State) : State :=
  forEntries (fun e => e.touchedBy n address.toNat length) failWriteOnEntry s

/-! ## Notices (section 1.6) -/

/-- R24: a notice marks one entry. -/
def markEntry (i : SlotIx) (s : State) : State :=
  match s.entry i with
  | none => s
  | some e =>
    if e.state = .suspended then s
    else
      let s := s.modEntry i fun e => { e with state := if e.state = .valid then .stale else e.state }
      match e.phase with
      | .idle => queuePoll i s
      | .queued => s
      | .inFlight => s.modEntry i fun e => { e with repoll := true }

/-! ## Node presence (section 1.7) -/

/-- R25: one entry is suspended. -/
def suspendEntry (i : SlotIx) (s : State) : State :=
  match s.entry i with
  | none => s
  | some e =>
    if e.state = .suspended then s
    else
      (dropPoll i (nodeLink e.node) s).modEntry i fun e =>
        { e with state := .suspended, repoll := false, phase := if e.phase = .queued then .idle else e.phase }

/-- R25: the entries of a node leaving PRESENT are suspended. -/
def suspendNode (n : Node) (s : State) : State := forEntries (fun e => decide (e.node = n)) suspendEntry s

/-- R26: one SUSPENDED entry is resumed against its node's max length. -/
def resumeEntry (i : SlotIx) (s : State) : State :=
  match s.entry i with
  | none => s
  | some e =>
    if s.maxLength e.node < e.length then
      entryEvent i .entryFailed .tooLong (s.modEntry i fun e => { e with state := .failed, fault := .tooLong })
    else
      queuePoll i (s.modEntry i fun e => { e with state := if e.hasData then .stale else .unfilled })

/-- R26: the SUSPENDED entries of a node becoming PRESENT are resumed. -/
def resumeNode (n : Node) (s : State) : State :=
  forEntries (fun e => decide (e.node = n) && decide (e.state = .suspended)) resumeEntry s

/-! ## Holders (R5, R10, R13, R14) -/

/-- R14: a slot is freed. -/
def freeSlot (i : SlotIx) (s : State) : State :=
  let s := match s.entry i with
    | none => s
    | some e => dropPoll i (nodeLink e.node) s
  s.modSlot i fun sl => { generation := sl.generation + 1, entry := none }

/-- R13, R28: host `h`'s holder record is removed from the entry in slot `i`; the slot is freed or its class derived
afresh. -/
def removeHolder (h : Host) (i : SlotIx) (s : State) : State :=
  let s := s.modEntry i (Entry.modHolder h fun _ => none)
  match s.entry i with
  | none => s
  | some e => if e.holderCount = 0 then freeSlot i s else meetLimit i s

/-! ## The Poll Scheduler at a millisecond event (sections 2.3 and 2.5) -/

/-- R40: every entry in use ages by one. -/
def ageEntries (s : State) : State :=
  forSlots (fun i s => s.modEntry i fun e => { e with age := satInc e.age }) s

/-- R32: the period divides the count. -/
def divides (period : Word16) (count : Word32) : Bool := decide (count.toNat % period.toNat = 0)

/-- R32: the entry's effective class ticks at the present count. -/
def State.ticksNow (s : State) (e : Entry) : Bool :=
  match s.effective e with
  | .timed c => divides (s.periods.get c) s.timeBase
  | .notice => false

/-- R33, R34: a due entry is visited. -/
def tickEntry (i : SlotIx) (s : State) : State :=
  match s.entry i with
  | none => s
  | some e =>
    if !e.pollable then s
    else
      match e.phase with
      | .idle => queuePoll i s
      | .queued | .inFlight => s.modEntry i fun e => { e with skipped := satInc e.skipped }

/-- R33: the entries due at the present count are visited in ascending index, whichever class made them due. -/
def tickClasses (s : State) : State :=
  forSlots (fun i s => match s.entry i with
    | none => s
    | some e => if s.ticksNow e then tickEntry i s else s) s

/-- R41: the stale check of every entry, in ascending index. -/
def checkLimits (s : State) : State := forSlots meetLimit s

end Sys2Proof.Machine
end

