-- ==== Sys2Proof/Machine/Writes.lean ====
section
/-!
DEFINITION. The write queues: acceptance, taking, order, endings, node and link changes, and DRAIN accounting (Chapter 3).
-/

namespace Sys2Proof.Machine

/-! ## Counting and acceptance -/

/-- Every record counts, in every state (R46). -/
def WriteQueue.count (q : WriteQueue) : Nat := q.reserved.length + q.order.length

/-- The records of host `h` in the queue, in every state (R46). -/
def WriteQueue.countOf (q : WriteQueue) (h : Host) : Nat :=
  (q.reserved.filter fun r => r.origin = h).length + (q.order.filter fun r => r.origin = h).length

/-- A host other than `h` holds a claim on node `n` (R48, R74). -/
def State.claimedByOther (s : State) (h : Host) (n : Node) : Bool :=
  (s.claims.get n).holder.any fun k => decide (k.host ≠ h)

/-- R48: the write-direction address byte of alias window `w` is acknowledged for host `h`. -/
def State.acceptsWrite (s : State) (h : Host) (w : AliasSlot) : Bool :=
  let q := s.writeQueues.get (nodeLink w.node)
  decide (w.access = .readWrite) && decide (s.linkState (nodeLink w.node) = .up)
    && decide (s.presence w.node = .present) && !s.claimedByOther h w.node
    && decide (q.countOf h < 6) && decide (q.count < 16)

/-- The record R48 makes at an acknowledged address byte. R48 names no remote address, which the register byte gives (R49):
the 0 it holds until then is the model's choice (DESIGN CHOICE, notes/assumptions/28), and no rule reads it. -/
def reservationOf (h : Host) (n : Node) : WriteRecord :=
  { origin := h, reported := true, seq := none, node := n, address := 0, data := [], state := .reserved, lapse := none,
    covered := false }

/-- R48: reserve a record. -/
def reserveWrite (h : Host) (n : Node) (s : State) : State :=
  s.modWrites (nodeLink n) fun q => { q with reserved := q.reserved ++ [reservationOf h n] }

/-- Host `h`'s reservation in link `l`'s queue. -/
def State.reservation (s : State) (h : Host) (l : Link) : Option WriteRecord :=
  (s.writeQueues.get l).reserved.find? fun r => r.origin = h

/-- Change host `h`'s reservation in link `l`'s queue. -/
def modReservation (h : Host) (l : Link) (f : WriteRecord → WriteRecord) (s : State) : State :=
  s.modWrites l fun q => { q with reserved := q.reserved.map fun r => if r.origin = h then f r else r }

/-- R49, R51: host `h`'s reservation leaves link `l`'s queue. -/
def dropReservation (h : Host) (l : Link) (s : State) : State :=
  s.modWrites l fun q => { q with reserved := q.reserved.filter fun r => r.origin ≠ h }

/-! ## Endings (R55, R56) and DRAIN accounting (R62) -/

/-- The WRITE_FAILED event of a record (R56, R159). -/
def writeFailedEvent (r : WriteRecord) (why : Reason) : EventBody :=
  { kind := .writeFailed, subject := nodeRef r.node, reason := why.code, value := r.seq.getD 0,
    detail := some (r.address, byteOf r.data.length) }

/-- A covered record of host `h` is still in a queue. -/
def State.coveredLeft (s : State) (h : Host) : Bool :=
  (List.finRange 2).any fun l => (s.writeQueues.get l).order.any fun r => decide (r.origin = h) && r.covered

/-- R62: a covered record of host `h` failed. -/
def countDrainFailure (h : Host) (s : State) : State :=
  s.modHost h fun hs => { hs with drain := hs.drain.map fun d => { d with failed := d.failed + 1 } }

/-- R62: the DRAIN of host `h` completes once no covered record is left. -/
def completeDrain (h : Host) (s : State) : State :=
  match (s.hosts.get h).drain with
  | none => s
  | some d =>
    if s.coveredLeft h then s
    else
      (notify h (eventOf .drainDone 0 Reason.ok.code (word16 (byteOf d.covered) (byteOf d.failed))) s).modHost h
        fun hs => { hs with drain := none }

/-- R55, R56: the ending of a taken write: mirror, report, DRAIN accounting, and the freeing of the record. -/
def finishWrite (l : Link) (r : WriteRecord) (outcome : Reason) (s : State) : State :=
  let ok := decide (outcome = .ok)
  let s := if ok then mirrorWriteOk r.node r.address r.data s else mirrorWriteFailed r.node r.address r.data.length s
  let s := if !ok && r.reported then notify r.origin (writeFailedEvent r outcome) s else s
  let s := if r.covered && !ok then countDrainFailure r.origin s else s
  let s := s.modWrites l fun q => { q with order := q.order.erase r }
  if r.covered then completeDrain r.origin s else s

/-- R56, R59, R60: the taken records `p` accepts fail, oldest first. -/
def failWrites (l : Link) (p : WriteRecord → Bool) (why : Reason) (s : State) : State :=
  ((s.writeQueues.get l).order.filter p).foldl (fun s r => finishWrite l r why s) s

/-! ## Taking (R47, R51, R52) -/

/-- R51, R52: host `h`'s transaction to link `l` ends, and its reservation is taken, returned, or fails at once. -/
def takeWrite (h : Host) (l : Link) (s : State) : State :=
  match s.reservation h l with
  | none => s
  | some r =>
    let s := dropReservation h l s
    if r.data.isEmpty then s
    else
      let seq := incSkipZero (s.hosts.get h).seqCounter
      let s := s.modHost h fun hs => { hs with seqCounter := seq }
      match r.lapse with
      | some why => finishWrite l { r with seq := some seq } why s
      | none =>
        s.modWrites l fun q => { q with order := q.order ++ [{ r with seq := some seq, state := .queued }] }

/-! ## Order (R53) -/

/-- R53: the oldest QUEUED record whose node has no OUTSTANDING record. -/
def WriteQueue.offered (q : WriteQueue) : Option WriteRecord :=
  q.order.find? fun r =>
    decide (r.state = .queued) && !(q.order.any fun x => decide (x.node = r.node ∧ x.state = .outstanding))

/-- R54: the offered record is granted a tag. -/
def sendWrite (l : Link) (r : WriteRecord) (s : State) : State :=
  s.modWrites l fun q => { q with order := q.order.replace r { r with state := .outstanding } }

/-- The OUTSTANDING record of node `n`: a node has at most one (R53). -/
def WriteQueue.outstanding (q : WriteQueue) (n : Node) : Option WriteRecord :=
  q.order.find? fun x => decide (x.node = n ∧ x.state = .outstanding)

/-! ## Changes of node presence and link state (R50, R57 to R60) -/

/-- R50: the first change that would have refused the address byte sets the lapse reason of a RESERVED record. -/
def lapseReservations (l : Link) (p : WriteRecord → Bool) (why : Reason) (s : State) : State :=
  s.modWrites l fun q =>
    { q with reserved := q.reserved.map fun r => if p r && r.lapse.isNone then { r with lapse := some why } else r }

/-- R57: the QUEUED records of a restarted node become HELD and keep their places. -/
def holdWrites (n : Node) (s : State) : State :=
  s.modWrites (nodeLink n) fun q =>
    { q with order := q.order.map fun r => if r.node = n ∧ r.state = .queued then { r with state := .held } else r }

/-- R58: the HELD records of a node that became PRESENT, oldest first. -/
def releaseWrites (n : Node) (s : State) : State :=
  let tooLong := fun (r : WriteRecord) =>
    decide (r.node = n ∧ r.state = .held) && decide (s.maxLength n < r.data.length)
  let s' := failWrites (nodeLink n) tooLong .tooLong s
  s'.modWrites (nodeLink n) fun q =>
    { q with order := q.order.map fun r => if r.node = n ∧ r.state = .held then { r with state := .queued } else r }

/-- R59: the records of a node in one state fail. -/
def failNodeWrites (n : Node) (st : WriteState) (why : Reason) (s : State) : State :=
  failWrites (nodeLink n) (fun r => decide (r.node = n ∧ r.state = st)) why s

/-! ## Host clearing (R63) -/

/-- The QUEUED and HELD records of host `h`, which host clearing frees (R63). -/
def clearable (h : Host) (r : WriteRecord) : Bool := decide (r.origin = h ∧ (r.state = .queued ∨ r.state = .held))

/-- R63: host clearing of `h` in the write queues and its drain record. -/
def clearWrites (h : Host) (s : State) : State :=
  let one := fun (q : WriteQueue) =>
    { q with order := (q.order.filter fun r => !clearable h r).map fun r =>
        if r.origin = h then { r with reported := false, covered := false } else r }
  ((s.modWrites 0 one).modWrites 1 one).modHost h fun hs => { hs with drain := none }

/-- The number of write records host clearing of `h` frees (R156). -/
def clearableWrites (h : Host) (s : State) : Nat :=
  ((List.finRange 2).map fun l => ((s.writeQueues.get l).order.filter (clearable h)).length).sum

end Sys2Proof.Machine
end

