-- ==== Sys2Proof/Machine/Arbiter.lean ====
section
/-!
DEFINITION. The link request arbiters: granting tags, sending copies, ending requests, fetch endings (Chapter 7).
-/

namespace Sys2Proof.Machine

/-! ## Tags -/

/-- A tag that is free (R111). -/
def Arbiter.isFree (a : Arbiter) (t : Tag) : Bool := (a.tags.get t).request.isNone

/-- The lowest-numbered free tag (R113). -/
def Arbiter.lowestFree (a : Arbiter) : Option Tag := (List.finRange 8).find? fun t => a.isFree t

/-- The number of tags in use (R109). -/
def Arbiter.inUse (a : Arbiter) : Nat := ((List.finRange 8).filter fun t => !a.isFree t).length

/-- R112: a request record as it is created: TO_SEND, nothing sent, no timer. -/
def newRequest (kind : RequestKind) (n : Node) (address : Word16) (length : Nat) : Request :=
  { kind := kind, node := n, address := address, length := length, settings := none, retriesUsed := 0,
    frame := .toSend, sentOnce := false, timer := none }

/-- R111, R114, R116: tag `t` is granted to a request of class `c`: its round goes on by one, its frame's first copy
joins the transmitter's order, and the mark names the class that was not served. -/
def grantTag (l : Link) (t : Tag) (c : RequestClass) (r : Request) (s : State) : State :=
  s.modArbiter l fun a =>
    { (a.modTag t fun tr => { round := tr.round + 1, request := some r }) with
      txOrder := a.txOrder ++ [t], nextClass := match c with | .write => .read | .read => .write }

/-! ## Granting (R113 to R115) -/

/-- R113: the write class is eligible on an UP link whose write queue offers a record. -/
def State.writeEligible (s : State) (l : Link) : Bool :=
  decide (s.linkState l = .up) && (s.writeQueues.get l).offered.isSome

/-- R113: the read class is eligible. -/
def State.readEligible (s : State) (l : Link) : Bool :=
  match s.linkState l with
  | .up => !(s.arbiters.get l).idents.isEmpty || !(s.arbiters.get l).fetches.isEmpty || !(s.pollQueues.get l).isEmpty
  | .enumerating => !(s.arbiters.get l).idents.isEmpty
  | .off => false
  | .training => false
  | .down => false

/-- R54, R115: the write class is served. -/
def serveWrite (l : Link) (t : Tag) (s : State) : State :=
  match (s.writeQueues.get l).offered with
  | none => s
  | some r =>
    grantTag l t .write (newRequest .write r.node r.address r.data.length) (sendWrite l r s)

/-- R39, R115: the head item of the poll queue is taken. -/
def servePoll (l : Link) (t : Tag) (s : State) : State :=
  match s.pollQueues.get l with
  | [] => s
  | item :: rest =>
    let s := s.modPolls l fun _ => rest
    match s.entry item.slot with
    | none => s
    | some e =>
      grantTag l t .read (newRequest (.poll item.slot item.generation e.epoch) e.node e.first e.length)
        (s.modEntry item.slot fun e => { e with phase := .inFlight })

/-- R115: the read class is served: pending IDENTs, then pending fetches, then the poll queue. -/
def serveRead (l : Link) (t : Tag) (s : State) : State :=
  match (s.arbiters.get l).idents with
  | n :: rest => grantTag l t .read (newRequest .ident n 0 8) (s.modArbiter l fun a => { a with idents := rest })
  | [] =>
    match (s.arbiters.get l).fetches with
    | f :: rest =>
      grantTag l t .read (newRequest (.fetch f.host f.ticket f.reported) f.node f.address f.length)
        (s.modArbiter l fun a => { a with fetches := rest })
    | [] => servePoll l t s

/-- R113, R114: one grant on link `l`, if a tag is free and a class is eligible. -/
def grantOne (l : Link) (s : State) : State :=
  match (s.arbiters.get l).lowestFree with
  | none => s
  | some t =>
    if s.writeEligible l && (!s.readEligible l || decide ((s.arbiters.get l).nextClass = .write)) then serveWrite l t s
    else if s.readEligible l then serveRead l t s
    else s

/-- R113: the arbiter of link `l` goes on granting; eight tags allow at most eight grants. -/
def grantLink (l : Link) (s : State) : State :=
  grantOne l (grantOne l (grantOne l (grantOne l (grantOne l (grantOne l (grantOne l (grantOne l s)))))))

/-- R113: both arbiters grant what the step has made eligible. -/
def grants (s : State) : State := grantLink 1 (grantLink 0 s)

/-! ## Sending (R116) -/

/-- The bytes of a WRITE request: those of its write record (R54, R112). -/
def State.requestData (s : State) (l : Link) (r : Request) : List Byte :=
  match r.kind with
  | .write => (((s.writeQueues.get l).outstanding r.node).map WriteRecord.data).getD []
  | .poll _ _ _ => []
  | .fetch _ _ _ => []
  | .ident => []

/-- R107, R116: a copy of a request's frame has been sent; the first copy takes the link's settings. -/
def Request.copySent (r : Request) (link : LinkRecord) : Request :=
  let set := r.settings.getD { timeout := link.timeout, retryLimit := link.retryLimit }
  { r with settings := some set, frame := .sent, sentOnce := true, timer := some set.timeout }

/-- R116: every copy of the request `r` on tag `t` is the same frame. -/
def State.copyBytes (s : State) (l : Link) (t : Tag) (r : Request) : List Byte :=
  requestFrame t ((s.arbiters.get l).tags.get t).round r (s.requestData l r)

/-- R97, R116: the REQUEST frame link `l` has to send next: one that was begun before its request ended, else the oldest
waiting copy. -/
def State.requestToSend (s : State) (l : Link) : Option (List Byte) :=
  match (s.arbiters.get l).onLine, (s.arbiters.get l).txOrder with
  | some bytes, _ => some bytes
  | none, [] => none
  | none, t :: _ => (s.request l t).map (s.copyBytes l t)

/-- R97: the frame the transmitter of link `l` sends next, without pause: a REQUEST frame whenever there is one to send, SYNC
frames between them, SYNC frames alone in TRAINING; in OFF and DOWN the transmitter is quiet. -/
def State.transmits (s : State) (l : Link) : Option (List Byte) :=
  match s.linkState l with
  | .off => none
  | .down => none
  | .training => some syncFrameBytes
  | .enumerating => some ((s.requestToSend l).getD syncFrameBytes)
  | .up => some ((s.requestToSend l).getD syncFrameBytes)

/-- R107, R116: the REQUEST frame link `l` had to send next has been sent: a begun frame leaves the line, a waiting copy the
transmitter's order, and the copy's request is SENT. -/
def requestSent (l : Link) (s : State) : State :=
  match (s.arbiters.get l).onLine, (s.arbiters.get l).txOrder with
  | some _, _ => s.modArbiter l fun a => { a with onLine := none }
  | none, [] => s
  | none, t :: rest => s.modArbiter l fun a =>
      { (a.modTag t fun tr => { tr with request := tr.request.map fun r => r.copySent (s.links.get l) }) with
        txOrder := rest }

/-- R97, R116: the last byte of the frame that link `l` sends is sent; where that is a SYNC frame, nothing but the line shows
it (DESIGN CHOICE, notes/assumptions/18). -/
def copySent (l : Link) (s : State) : State :=
  match s.transmits l with
  | none => s
  | some bytes =>
    (if s.linkState l = .training then s else requestSent l s).modArbiter l fun a => { a with sentFrame := bytes }

/-- R120, R121: a request resent once more, its timer stopped until the new copy has been sent. -/
def Request.resent (r : Request) : Request :=
  { r with retriesUsed := r.retriesUsed + 1, frame := .toSend, timer := none }

/-- R120, R121: a retry is counted and a new copy joins the transmitter's order, unless one waits there already. -/
def resend (l : Link) (t : Tag) (s : State) : State :=
  let s := s.modArbiter l fun a =>
    { (a.modTag t fun tr => { tr with request := tr.request.map Request.resent }) with
      txOrder := if t ∈ a.txOrder then a.txOrder else a.txOrder ++ [t] }
  s.modLink l fun k => { k with retries := satInc k.retries }

/-- Retries are left to the request (R120, R121). -/
def Request.retriesLeft (r : Request) : Bool := r.settings.any fun set => decide (r.retriesUsed < set.retryLimit)

/-! ## Endings (R118) -/

/-- The copy of tag `t`'s request is the next the transmitter sends, with no other frame on the line: it may have been
begun (R97, R116). -/
def Arbiter.mayHaveBegun (a : Arbiter) (t : Tag) : Bool := a.onLine.isNone && decide (a.txOrder.head? = some t)

/-- R97: a frame that has begun is sent whole; whether the copy of the request `r` on tag `t`, which ends now, has begun is
a free value of Config (notes/assumptions/16). -/
def keepBegun (l : Link) (t : Tag) (r : Request) (s : State) : State :=
  if (s.arbiters.get l).mayHaveBegun t then
    let s' := { s with choices := s.choices + 1 }
    if Config.copyBegun s.choices then s'.modArbiter l fun a => { a with onLine := some (s.copyBytes l t r) } else s'
  else s

/-- R118, R119: the timer of the request on tag `t` stops, the tag becomes free, the record goes, and a waiting copy is
withdrawn. -/
def withdraw (l : Link) (t : Tag) (s : State) : State :=
  s.modArbiter l fun a =>
    { (a.modTag t fun tr => { tr with request := none }) with txOrder := a.txOrder.filter fun x => x ≠ t }

/-- R97, R118, R119: the tag `t` of the request `r`, which ends alone, becomes free; its copy is withdrawn unless it has begun. -/
def freeTag (l : Link) (t : Tag) (r : Request) (s : State) : State := withdraw l t (keepBegun l t r s)

/-- R97, R123: of requests that end together only the copy that is next to be sent before the change may have begun, if its
request is one that ends. -/
def keepBegunOf (l : Link) (ends : Request → Bool) (s : State) : State :=
  match (s.arbiters.get l).txOrder with
  | [] => s
  | t :: _ =>
    match s.request l t with
    | none => s
    | some r => if ends r then keepBegun l t r s else s

/-- R129: a fetch with "reported" yes ends, in flight or pending: the buffer is replaced whole, then FETCH_DONE. -/
def finishFetch (h : Host) (ticket : Byte) (reported : Bool) (n : Node) (address : Word16) (length : Nat)
    (outcome : Reason) (data : List Byte) (s : State) : State :=
  if reported then
    let result : FetchResult :=
      { ticket := ticket, status := outcome, node := n, address := address, length := length,
        data := if outcome = .ok then data else [] }
    notify h (eventOf .fetchDone (nodeRef n) outcome.code (ticket.setWidth 16))
      (s.modHost h fun hs => { hs with fetchBuffer := some result })
  else s

/-- R118: the ending of a poll, write or fetch is handed to its owner. -/
def handOver (l : Link) (r : Request) (outcome : Reason) (data : List Byte) (s : State) : State :=
  match r.kind with
  | .poll i generation epoch => applyPollEnding i generation r.node r.address r.length epoch outcome data s
  | .fetch h ticket reported => finishFetch h ticket reported r.node r.address r.length outcome data s
  | .write =>
    match (s.writeQueues.get l).outstanding r.node with
    | none => s
    | some w => finishWrite l w outcome s
  | .ident => s

/-- A request that belongs to an IDENT. -/
def Request.isIdent (r : Request) : Bool := decide (r.kind = .ident)

/-- A WRITE request. -/
def Request.isWrite (r : Request) : Bool :=
  match r.kind with
  | .write => true
  | .poll _ _ _ => false
  | .fetch _ _ _ => false
  | .ident => false

/-- R123, R124: the requests in flight that `p` accepts end with an imposed reason, in ascending tag order; nothing is
counted or reported to the Node Directory. `why` gives the reason for each request. Their copies are withdrawn, but for one
that had begun. -/
def endRequests (l : Link) (p : Request → Bool) (why : Request → Reason) (s : State) : State :=
  forTags (fun t s => match s.request l t with
    | none => s
    | some r => if p r then handOver l r (why r) [] (withdraw l t s) else s) (keepBegunOf l p s)

/-- R123, R124, R128: the pending fetches that `p` accepts end, oldest first. -/
def endFetches (l : Link) (p : FetchItem → Bool) (why : Reason) (s : State) : State :=
  let items := (s.arbiters.get l).fetches.filter p
  items.foldl (fun s f => finishFetch f.host f.ticket f.reported f.node f.address f.length why [] s)
    (s.modArbiter l fun a => { a with fetches := a.fetches.filter fun f => !p f })

/-- The arbiter of link `l` will hand an event to a host when the requests `p` and the pending fetches `q` end
(R159). -/
def State.endingsReported (s : State) (l : Link) (p : Request → Bool) (q : FetchItem → Bool) : Bool :=
  ((List.finRange 8).any fun t => (s.request l t).any fun r => p r && match r.kind with
    | .write => true
    | .fetch _ _ _ => true
    | .poll _ _ _ => false
    | .ident => false) || (s.arbiters.get l).fetches.any q

end Sys2Proof.Machine
end

