-- ==== Sys2Proof/Machine/Ports.lean ====
section
/-!
DEFINITION. The host port engines below the level of commands: address decoding, snapshots, alias and control window bytes,
read reports, and the endings of reads (Chapter 8, R161, R168, R169).
-/

namespace Sys2Proof.Machine

/-! ## Address decoding (R134) -/

/-- What an address byte names on a host's bus (R134). -/
inductive AddressMatch
  | control
  | window (slot : AliasIx) (w : AliasSlot)
  | nothing
  deriving DecidableEq, Repr

/-- The host's in-use alias slot with the given address. -/
def HostState.aliasAt (hs : HostState) (a : BitVec 7) : Option AliasIx :=
  (List.finRange 8).find? fun k => (hs.aliases.get k).any fun w => decide (w.address = a)

/-- R134: an address byte is decoded against the control address and the host's own in-use alias slots. -/
def State.decodeAddress (s : State) (h : Host) (a : BitVec 7) : AddressMatch :=
  if a = s.controlAddress then .control
  else
    match (s.hosts.get h).aliasAt a with
    | none => .nothing
    | some k =>
      match (s.hosts.get h).aliases.get k with
      | none => .nothing
      | some w => .window k w

/-! ## Bus answers and the transaction -/

/-- The port answers the byte, and the transaction becomes `t`. -/
def HostState.answerWith (x : BusAnswer) (t : Transaction) (hs : HostState) : HostState :=
  { hs with answer := x, transaction := t }

/-- The open transaction of host `h`. -/
def State.transaction (s : State) (h : Host) : Transaction := (s.hosts.get h).transaction

/-- R134: an address byte that is not acknowledged; the part takes no part in the rest. -/
def refuseAddress (h : Host) (s : State) : State := s.modHost h (HostState.answerWith .nack .ignored)

/-! ## Alias reads (R142 to R146) -/

/-- A snapshot entry made of a mirror entry (R143). -/
def Entry.snapshot (e : Entry) : SnapshotEntry :=
  { first := e.first, data := e.data, state := e.state, age := e.age }

/-- R143: the in-use entries of the window's node that share an address with the window, in ascending slot index. -/
def State.snapshotOf (s : State) (w : AliasSlot) : List SnapshotEntry :=
  (List.finRange 48).filterMap fun i => (s.entry i).bind fun e =>
    if decide (e.node = w.node) && rangesShare w.base.toNat w.size e.first.toNat e.length then some e.snapshot else none

/-- The snapshot entry in which a remote register lies. -/
def entryAt (snapshot : List SnapshotEntry) (address : Nat) : Option SnapshotEntry :=
  snapshot.find? fun e => inRange address e.first.toNat e.data.length

/-- The snapshot entry at a window position, none past the window end (R138, R142). -/
def entryAtPosition (w : AliasSlot) (snapshot : List SnapshotEntry) (position : Nat) : Option SnapshotEntry :=
  if position < w.size then entryAt snapshot (w.base.toNat + position) else none

/-- R144: the stored byte at a window position, if there is one. -/
def storedAt (w : AliasSlot) (snapshot : List SnapshotEntry) (position : Nat) : Option Byte :=
  (entryAtPosition w snapshot position).bind fun e => (e.data[w.base.toNat + position - e.first.toNat]?).join

/-- The fill byte (R144). -/
def fillByte : Byte := 0xFF

/-- The first remote address of a report: the base plus the position, modulo 65536 (R145). -/
def reportAddress (w : AliasSlot) (start : Byte) : Word16 := w.base + start.setWidth 16

/-- A count that stops at 65535 (R145). -/
def stopAt65535 (n : Nat) : Word16 := BitVec.ofNat 16 (min n 65535)

/-- R145: a snapshot entry is touched when one of the `sent` bytes from position `start` lay within the window and within
its range. -/
def touchedByRead (w : AliasSlot) (start sent : Nat) (e : SnapshotEntry) : Bool :=
  decide (max (w.base.toNat + start) e.first.toNat
    < min (w.base.toNat + min (start + sent) w.size) (e.first.toNat + e.data.length))

/-- The worst state among entries, none for no entry (R145). -/
def worstOf (es : List SnapshotEntry) : Option EntryState :=
  es.foldl (fun worst e => match worst with
    | none => some e.state
    | some x => if x.rank < e.state.rank then some e.state else some x) none

/-- The greatest age among entries, 0 for no entry (R145). -/
def oldestOf (es : List SnapshotEntry) : Word16 := es.foldl (fun a e => if a < e.age then e.age else a) 0

/-- R145: the report of a served read. -/
def servedReport (k : AliasIx) (w : AliasSlot) (start : Byte) (snapshot : List SnapshotEntry) (sent fill : Nat) :
    ReadReport :=
  let es := snapshot.filter (touchedByRead w start.toNat sent)
  { outcome := .served, slot := k, first := reportAddress w start, bytesRead := stopAt65535 sent,
    fillBytes := stopAt65535 fill, worst := worstOf es, oldest := oldestOf es, touched := es.length }

/-- R146: the report of a read refused at a strict alias, with the entry at the pointer. -/
def refusedReport (k : AliasIx) (w : AliasSlot) (pointer : Byte) (at' : Option SnapshotEntry) : ReadReport :=
  { outcome := .refused, slot := k, first := reportAddress w pointer, bytesRead := 0, fillBytes := 0,
    worst := at'.map SnapshotEntry.state, oldest := (at'.map SnapshotEntry.age).getD 0,
    touched := if at'.isSome then 1 else 0 }

/-- R142, R143, R146: a read-direction address byte at alias slot `k` with window `w`. -/
def aliasReadAddress (h : Host) (k : AliasIx) (w : AliasSlot) (s : State) : State :=
  let pointer := (s.hosts.get h).pointer
  let snapshot := s.snapshotOf w
  let at' := entryAtPosition w snapshot pointer.toNat
  if !w.strict || at'.any fun e => decide (e.state = .valid) then
    s.modHost h (HostState.answerWith .ack (.aliasRead k w pointer snapshot 0 0))
  else
    (refuseAddress h s).modHost h fun hs => { hs with report := refusedReport k w pointer at' }

/-- R138, R144: one byte of an alias read is sent. -/
def aliasReadByte (h : Host) (s : State) : State :=
  match s.transaction h with
  | .aliasRead k w start snapshot sent fill =>
    let stored := storedAt w snapshot (start.toNat + sent)
    s.modHost h fun hs =>
      { hs with answer := .byte (stored.getD fillByte), pointer := hs.pointer + 1,
                transaction := .aliasRead k w start snapshot (sent + 1) (if stored.isSome then fill else fill + 1) }
  | .idle => s
  | .ignored => s
  | .controlWrite _ _ => s
  | .controlRead _ _ _ => s
  | .aliasWrite _ _ _ => s

/-- R145: the end of an alias read. -/
def aliasReadEnd (h : Host) (s : State) : State :=
  match s.transaction h with
  | .aliasRead k w start snapshot sent fill =>
    s.modHost h fun hs => { hs with report := servedReport k w start snapshot sent fill, transaction := .idle }
  | .idle => s
  | .ignored => s
  | .controlWrite _ _ => s
  | .controlRead _ _ _ => s
  | .aliasWrite _ _ _ => s

/-! ## The control window's read areas (R147, R168, R169) -/

/-- R147: the copy of the five read areas as they stand. -/
def State.controlCopy (s : State) (h : Host) : ControlCopy :=
  let hs := s.hosts.get h
  { result := hs.result, event := hs.events.head?, report := hs.report, fetch := hs.fetchBuffer, port := h,
    controlAddress := s.controlAddress, setupHost := s.setupHost }

/-- The RESULT area, 14 bytes (R169). -/
def resultArea (r : ResultRecord) : List Byte := [r.number, r.address, r.status.code, byteOf r.values.length] ++ r.values

/-- The EVENT area, 12 bytes; the NONE record is all zero (R161, R169). -/
def eventArea (e : Option EventRecord) : List Byte :=
  match e with
  | none => []
  | some r =>
    let detail := r.detail.getD (0, 0)
    [r.kind.code, r.number, r.subject, r.reason] ++ bytes16 r.value ++ bytes16 r.stamp ++ bytes16 detail.1 ++ [detail.2]

/-- The READ_REPORT area, 12 bytes (R169). -/
def reportArea (r : ReadReport) : List Byte :=
  [r.outcome.code, byteOf r.slot.val] ++ bytes16 r.first ++ bytes16 r.bytesRead ++ bytes16 r.fillBytes
    ++ [(r.worst.map EntryState.code).getD 0] ++ bytes16 r.oldest ++ [byteOf r.touched]

/-- The FETCH_DATA area, 14 bytes; status NONE is all zero (R129, R168, R169). -/
def fetchArea (f : Option FetchResult) : List Byte :=
  match f with
  | none => []
  | some r =>
    [r.ticket, r.status.code, nodeRef r.node] ++ bytes16 r.address ++ [byteOf r.length]
      ++ (if r.status = .ok then r.data else [])

/-- The PART_ID area: vendor code 0x1A07, part code 0x0408, revision 0x01, port number, control address, setup host
(R147, R169). -/
def partIdArea (c : ControlCopy) : List Byte :=
  [0x1A, 0x07, 0x04, 0x08, 0x01, byteOf c.port.val, c.controlAddress.setWidth 8, byteOf c.setupHost.val]

/-- The byte of an area of `size` positions from `start`; what the area does not hold reads 0x00 (R168). -/
def areaByte (area : List Byte) (start size position : Nat) : Option Byte :=
  if start ≤ position ∧ position < start + size then some (area[position - start]?.getD 0) else none

/-- R147, R168, R169: the byte at a position of the control window; positions of no area read 0x00. -/
def controlByte (c : ControlCopy) (position : Nat) : Byte :=
  ((areaByte (resultArea c.result) 0x00 14 position).or
    ((areaByte (eventArea c.event) 0x10 12 position).or
      ((areaByte (reportArea c.report) 0x20 12 position).or
        ((areaByte (fetchArea c.fetch) 0x30 14 position).or
          (areaByte (partIdArea c) 0x40 8 position))))).getD 0

/-- R147: a read-direction address byte at the control address. -/
def controlReadAddress (h : Host) (s : State) : State :=
  let copy := s.controlCopy h
  s.modHost h fun hs =>
    { hs with answer := .ack, transaction := .controlRead hs.pointer copy 0, countedApart := 0 }

/-- R138, R147: one byte of a control window read is sent. -/
def controlReadByte (h : Host) (s : State) : State :=
  match s.transaction h with
  | .controlRead start copy sent =>
    s.modHost h fun hs =>
      { hs with answer := .byte (controlByte copy (start.toNat + sent)), pointer := hs.pointer + 1,
                transaction := .controlRead start copy (sent + 1) }
  | .idle => s
  | .ignored => s
  | .controlWrite _ _ => s
  | .aliasWrite _ _ _ => s
  | .aliasRead _ _ _ _ _ _ => s

/-- R161, R169: every position of the EVENT area, 0x10 to 0x1B, was sent. -/
def coversEventArea (start : Byte) (sent : Nat) : Bool := decide (start.toNat ≤ 0x10 ∧ 0x1B < start.toNat + sent)

/-- R161: the end of a control window read. -/
def controlReadEnd (h : Host) (s : State) : State :=
  match s.transaction h with
  | .controlRead start copy sent =>
    s.modHost h fun hs =>
      let hs := { hs with transaction := Transaction.idle }
      match copy.event with
      | none => hs
      | some r => if coversEventArea start sent then hs.removeRead (low16 s.timeBase) r else hs
  | .idle => s
  | .ignored => s
  | .controlWrite _ _ => s
  | .aliasWrite _ _ _ => s
  | .aliasRead _ _ _ _ _ _ => s

/-! ## Alias writes (R48, R49, R139, R140) -/

/-- R48: a write-direction address byte at alias slot `k` with window `w`. -/
def aliasWriteAddress (h : Host) (k : AliasIx) (w : AliasSlot) (s : State) : State :=
  if s.acceptsWrite h w then
    (reserveWrite h w.node s).modHost h (HostState.answerWith .ack (.aliasWrite k w .register))
  else refuseAddress h s

/-- R49, R139: the register byte of an alias write. -/
def aliasRegister (h : Host) (k : AliasIx) (w : AliasSlot) (b : Byte) (s : State) : State :=
  if b.toNat < w.size then
    (modReservation h (nodeLink w.node) (fun r => { r with address := w.base + b.setWidth 16 }) s).modHost h fun hs =>
      { hs with pointer := b, answer := .ack, transaction := .aliasWrite k w (.data b.toNat) }
  else
    (dropReservation h (nodeLink w.node) s).modHost h (HostState.answerWith .nack (.aliasWrite k w .refused))

/-- R49: a data byte of an alias write at window position `position` is refused. -/
def State.refusesByte (s : State) (h : Host) (w : AliasSlot) (position : Nat) : Bool :=
  let stored := ((s.reservation h (nodeLink w.node)).map fun r => r.data.length).getD 0
  decide (8 < stored + 1) || decide (s.maxLength w.node < stored + 1) || decide (w.size ≤ position)

/-- R49, R138, R140: a data byte of an alias write. -/
def aliasDataByte (h : Host) (b : Byte) (s : State) : State :=
  match s.transaction h with
  | .aliasWrite k w (.data position) =>
    if s.refusesByte h w position then s.modHost h (HostState.answerWith .nack (.aliasWrite k w .refused))
    else
      (modReservation h (nodeLink w.node) (fun r => { r with data := r.data ++ [b] }) s).modHost h fun hs =>
        { hs with pointer := hs.pointer + 1, answer := .ack, transaction := .aliasWrite k w (.data (position + 1)) }
  | .aliasWrite k w .refused => s.modHost h (HostState.answerWith .nack (.aliasWrite k w .refused))
  | .aliasWrite _ _ .register => s
  | .ignored => refuseAddress h s
  | .idle => s
  | .controlWrite _ _ => s
  | .controlRead _ _ _ => s
  | .aliasRead _ _ _ _ _ _ => s

/-- R51: the end of an alias write. -/
def aliasWriteEnd (h : Host) (s : State) : State :=
  match s.transaction h with
  | .aliasWrite _ w _ => grants (takeWrite h (nodeLink w.node) (s.modHost h fun hs => { hs with transaction := .idle }))
  | .idle => s
  | .ignored => s
  | .controlWrite _ _ => s
  | .controlRead _ _ _ => s
  | .aliasRead _ _ _ _ _ _ => s

/-- R139: the register byte after an acknowledged write-direction address byte. -/
def registerByte (h : Host) (b : Byte) (s : State) : State :=
  match s.transaction h with
  | .controlWrite none bytes =>
    s.modHost h fun hs => { hs with pointer := b, answer := .ack, transaction := .controlWrite (some b) bytes }
  | .aliasWrite k w .register => aliasRegister h k w b s
  | .ignored => refuseAddress h s
  | .aliasWrite _ _ (.data _) => s
  | .aliasWrite _ _ .refused => s
  | .controlWrite (some _) _ => s
  | .idle => s
  | .controlRead _ _ _ => s
  | .aliasRead _ _ _ _ _ _ => s

end Sys2Proof.Machine
end

