-- ==== Sys2Proof/Machine/Claims.lean ====
section
/-!
DEFINITION. The Claim Unit: leases, grants, releases, expiry and host clearing (Chapter 4).
-/

namespace Sys2Proof.Machine

/-- R65: the lease end of a lease of `lease` units of 10 ms that starts at `count`. -/
def leaseEndAt (count : Word32) (lease : Byte) : Word32 := count + 10 * lease.setWidth 32

/-- Host `h` is the holder of node `n`'s claim. -/
def State.holdsClaim (s : State) (h : Host) (n : Node) : Bool :=
  (s.claims.get n).holder.any fun k => decide (k.host = h)

/-- Host `h`'s place on a wait list, from 0. -/
def ClaimRecord.waitIndex (c : ClaimRecord) (h : Host) : Option Nat := c.waiters.findIdx? fun w => w.host = h

/-- R65, R67, R69: host `h` holds node `n`'s claim with a lease that starts now. -/
def startLease (n : Node) (h : Host) (lease : Byte) (s : State) : State :=
  s.modClaim n fun c => { c with holder := some { host := h, lease := lease, leaseEnd := leaseEndAt s.timeBase lease } }

/-- The low 16 bits of node `n`'s lease end, 0 where there is no holder (R77, R168). -/
def State.leaseEndLow (s : State) (n : Node) : Word16 :=
  ((s.claims.get n).holder.map fun k => low16 k.leaseEnd).getD 0

/-- R68: the holder leaves the record, and the head waiter, if any, is granted as part of the same change. -/
def releaseClaim (n : Node) (s : State) : State :=
  match (s.claims.get n).waiters with
  | [] => s.modClaim n fun c => { c with holder := none }
  | w :: rest =>
    let s := startLease n w.host w.lease (s.modClaim n fun c => { c with waiters := rest })
    notify w.host (eventOf .claimGranted (nodeRef n) Reason.granted.code (s.leaseEndLow n)) s

/-- R71: host `h`'s waiter item is withdrawn. -/
def withdrawWait (n : Node) (h : Host) (s : State) : State :=
  s.modClaim n fun c => { c with waiters := c.waiters.filter fun w => w.host ≠ h }

/-- R72: node `n`'s claim expires if its lease end equals the present count. -/
def expireClaim (n : Node) (s : State) : State :=
  match (s.claims.get n).holder with
  | none => s
  | some k =>
    if k.leaseEnd = s.timeBase then
      releaseClaim n (notify k.host (eventOf .claimExpired (nodeRef n) Reason.ok.code (k.lease.setWidth 16)) s)
    else s

/-- R72: every claim record is checked, in ascending node reference. -/
def expireClaims (s : State) : State := forNodes expireClaim s

/-- R76: host clearing of `h` in node `n`'s claim record. -/
def clearClaim (h : Host) (n : Node) (s : State) : State :=
  if s.holdsClaim h n then releaseClaim n s else withdrawWait n h s

/-- R76: host clearing of `h` in the claim records, in ascending node reference. -/
def clearClaims (h : Host) (s : State) : State := forNodes (clearClaim h) s

/-- Host `h` holds node `n`'s claim or waits for it. -/
def State.partOfClaim (s : State) (h : Host) (n : Node) : Bool :=
  s.holdsClaim h n || (s.claims.get n).waiters.any fun w => decide (w.host = h)

/-- The number of claims released and waits withdrawn by host clearing of `h` (R156). -/
def clearableClaims (h : Host) (s : State) : Nat := ((List.finRange 8).filter fun n => s.partOfClaim h n).length

end Sys2Proof.Machine
end

