-- ==== Sys2Proof/Machine/Directory.lean ====
section
/-!
DEFINITION. The Node Directory: presence changes, idents, enumeration, HELLO frames, timeouts and loss, pins (Chapter 5), and
the link's entry into UP that the end of an enumeration brings (R101, R110).
-/

namespace Sys2Proof.Machine

/-- A node event: the node reference as its subject, to all hosts (R95). -/
def nodeEvent (k : EventKind) (n : Node) (reason : Reason) (value : Word16) (s : State) : State :=
  broadcast (eventOf k (nodeRef n) reason.code value) s

/-- The number of a link's nodes that are PRESENT (R109, R110). -/
def State.presentCount (s : State) (l : Link) : Nat := ((linkNodes l).filter fun n => s.presence n = .present).length

/-! ## Leaving PRESENT (R80) -/

/-- R80: the reason with which a request in flight to the node ends, for the reason of the presence change. -/
def leavingReason (why : Reason) (r : Request) : Reason :=
  if why = .quarantined ∧ !r.isWrite then .nodeLost else why

/-- R123: the arbiter's part of a node leaving PRESENT: requests in flight, then pending fetches. -/
def endNodeRequests (n : Node) (why : Reason) (s : State) : State :=
  endFetches (nodeLink n) (fun f => f.node = n) (if why = .quarantined then .nodeLost else why)
    (endRequests (nodeLink n) (fun r => decide (r.node = n) && !r.isIdent) (leavingReason why) s)

/-- R50, R57, R59: the write queue's part of a node leaving PRESENT. -/
def leaveNodeWrites (n : Node) (why : Reason) (s : State) : State :=
  let s := if why = .nodeRestarted then holdWrites n s else failNodeWrites n .queued why s
  lapseReservations (nodeLink n) (fun r => r.node = n) why s

/-- Both the arbiter and the write queue will report to hosts (R159). -/
def State.leavingBoth (s : State) (n : Node) (why : Reason) : Bool :=
  decide (why ≠ .nodeRestarted)
    && s.endingsReported (nodeLink n) (fun r => r.node = n) (fun f => f.node = n)
    && ((s.writeQueues.get (nodeLink n)).order.any fun r => decide (r.node = n ∧ r.state = .queued))

/-- R80: a node leaves PRESENT for `p`; requests, writes and entries are handled by their owners, the first two in either
order. -/
def leavePresent (n : Node) (p : Presence) (cause : Option IdentCause) (why : Reason) (s : State) : State :=
  let s := s.modNode n fun r => { r with presence := p, cause := cause, timeouts := 0 }
  let s := eitherOrder (s.leavingBoth n why) (endNodeRequests n why) (leaveNodeWrites n why) s
  suspendNode n s

/-- R82: an IDENT for the node is handed to its link's arbiter. -/
def issueIdent (n : Node) (s : State) : State := s.modArbiter (nodeLink n) fun a => { a with idents := a.idents ++ [n] }

/-- R82: a node that was not PRESENT becomes IDENTIFYING. -/
def beginIdent (n : Node) (cause : IdentCause) (s : State) : State :=
  issueIdent n (s.modNode n fun r => { r with presence := .identifying, cause := some cause })

/-! ## Enumeration and UP (R86, R101, R110) -/

/-- R101, R110: the link enters UP, and LINK_UP is broadcast with the number of PRESENT nodes. -/
def enterUp (l : Link) (s : State) : State :=
  let s := s.modLink l fun k => { k with state := .up, stamp := low16 s.timeBase }
  broadcast (eventOf .linkUp (byteOf l.val) Reason.none.code (BitVec.ofNat 16 (s.presentCount l))) s

/-- R86: an enumeration IDENT of the link has not ended yet. -/
def State.enumerationOpen (s : State) (l : Link) : Bool :=
  (linkNodes l).any fun n => decide ((s.nodes.get n).cause = some .enumeration)

/-- R86, R101: when the last of the four enumeration IDENTs has ended, the link enters UP. -/
def reportEnumeration (l : Link) (s : State) : State :=
  if s.linkState l = .enumerating ∧ !s.enumerationOpen l then enterUp l s else s

/-- R86, R101: a link enters ENUMERATING: its four nodes become IDENTIFYING and their IDENTs are handed over in
ascending node address. -/
def enterEnumerating (l : Link) (s : State) : State :=
  let s := s.modLink l fun k =>
    { k with state := .enumerating, stamp := low16 s.timeBase, deadline := none, silence := 0 }
  (linkNodes l).foldl (fun s n => beginIdent n .enumeration s) s

/-! ## IDENT endings (R83 to R85) -/

/-- R84, R173: the identity that the eight bytes of an IDENT answer carry; a max length of 0 is recorded as 1 and one
above 8 as 8. -/
def identityOf (data : List Byte) : Option (Identity × BitVec 4) :=
  match data with
  | [v1, v0, m1, m0, revision, capability, count, _] =>
    let max := capability.toNat % 16
    some ({ vendor := word16 v1 v0, model := word16 m1 m0, revision := revision,
            maxLength := if max = 0 then 1 else if 8 < max then 8 else max,
            sendsNotices := capability.getLsbD 4 }, count.setWidth 4)
  | _ => none

/-- The pin of a record accepts an identity: no pin, or both codes match; the revision is not compared (R85, R92). -/
def pinAccepts (pin : Option Pin) (vendor model : Word16) : Bool :=
  match pin with
  | none => true
  | some p => decide (p.vendor = vendor ∧ p.model = model)

/-- Two identities agree in vendor code, model code and revision (R84). -/
def sameIdentity (a b : Identity) : Bool := decide (a.vendor = b.vendor ∧ a.model = b.model ∧ a.revision = b.revision)

/-- R84: an IDENT answer is recorded; where "sends notices" changes or is recorded first, the entries of the node meet
their new stale limits (R43). -/
def recordIdentity (n : Node) (identity : Identity) (count : BitVec 4) (s : State) : State :=
  let before := (s.nodes.get n).identity
  let s := s.modNode n fun r => { r with identity := some identity, noticeCount := count }
  if before.map Identity.sendsNotices = some identity.sendsNotices then s
  else forEntries (fun e => decide (e.node = n)) meetLimit s

/-- The table of R85: the event of a node that becomes PRESENT. -/
def arrivalEvent (before : Option Identity) (now : Identity) (cause : Option IdentCause) : Option EventKind :=
  match before with
  | none => some .nodeArrived
  | some b =>
    if !sameIdentity b now then some .nodeChanged
    else if cause = some .restart then none else some .nodeArrived

/-- The resumption of entries and the release of writes will both report to hosts (R159). -/
def State.arrivingBoth (s : State) (n : Node) : Bool :=
  ((List.finRange 48).any fun i => (s.entry i).any fun e =>
      decide (e.node = n) && decide (e.state = .suspended) && decide (s.maxLength n < e.length))
    && ((s.writeQueues.get (nodeLink n)).order.any fun r =>
      decide (r.node = n ∧ r.state = .held) && decide (s.maxLength n < r.data.length))

/-- R81: a node becomes PRESENT: its entries are resumed and its HELD records released, in either order. -/
def becomePresent (n : Node) (event : Option EventKind) (model : Word16) (s : State) : State :=
  let s := s.modNode n fun r => { r with presence := .present, cause := none, timeouts := 0 }
  let s := match event with
    | none => s
    | some k => nodeEvent k n .none model s
  eitherOrder (s.arrivingBoth n) (resumeNode n) (releaseWrites n) s

/-- R85: an answered IDENT decides the node's presence by its pin. -/
def identAnswered (n : Node) (identity : Identity) (count : BitVec 4) (s : State) : State :=
  let before := s.nodes.get n
  let s := recordIdentity n identity count s
  if pinAccepts before.pin identity.vendor identity.model then
    becomePresent n (arrivalEvent before.identity identity before.cause) identity.model s
  else
    let s := s.modNode n fun r => { r with presence := .quarantined, cause := none }
    failNodeWrites n .held .quarantined (nodeEvent .nodeQuarantined n .ident identity.model s)

/-- R83: an IDENT that ended without an OK answer makes the node ABSENT. -/
def identFailed (n : Node) (outcome : Reason) (s : State) : State :=
  let cause := (s.nodes.get n).cause
  let s := s.modNode n fun r => { r with presence := .absent, cause := none }
  let s := if cause = some .restart ∨ cause = some .lift then nodeEvent .nodeLost n outcome 0 s else s
  failNodeWrites n .held .nodeLost s

/-- R82, R83 to R86: an IDENT ending reaches the directory; one for a node no longer IDENTIFYING is discarded. -/
def identEnded (n : Node) (outcome : Reason) (data : List Byte) (s : State) : State :=
  if s.presence n ≠ .identifying then s
  else
    match outcome with
    | .ok =>
      match identityOf data with
      | none => s
      | some (identity, count) => reportEnumeration (nodeLink n) (identAnswered n identity count s)
    | .timeout | .busy | .refused | .badAddress => reportEnumeration (nodeLink n) (identFailed n outcome s)
    | .none | .linkDown | .stopped | .nodeLost | .nodeRestarted | .quarantined | .tooLong | .noPartner | .errors
    | .silent | .granted | .ident | .pin => s

/-! ## Timeouts and loss (R89, R90) -/

/-- R90: the node is lost. -/
def loseNode (n : Node) (s : State) : State :=
  leavePresent n .absent none .nodeLost (nodeEvent .nodeLost n .timeout 0 s)

/-- R89, R90: the ending of a READ or WRITE request to a PRESENT node is reported; `discarded` is a poll ending that R16
discarded. -/
def reportEnding (n : Node) (outcome : Reason) (discarded : Bool) (s : State) : State :=
  if s.presence n ≠ .present then s
  else
    match outcome with
    | .timeout =>
      if discarded then s
      else
        let s := s.modNode n fun r => { r with timeouts := r.timeouts + 1 }
        if 3 ≤ (s.nodes.get n).timeouts then loseNode n s else s
    | .ok | .refused | .badAddress => s.modNode n fun r => { r with timeouts := 0 }
    | .none | .busy | .linkDown | .stopped | .nodeLost | .nodeRestarted | .quarantined | .tooLong | .noPartner
    | .errors | .silent | .granted | .ident | .pin => s

/-- R16: the ending of this request will be discarded by the Mirror Table. -/
def State.discards (s : State) (r : Request) : Bool :=
  match r.kind with
  | .poll i generation _ => !pollApplies s i generation r.node r.address r.length
  | .fetch _ _ _ => false
  | .write => false
  | .ident => false

/-- R118: a request ends by a response or by its last timeout: the tag is freed, the owner acts, and the ending of a READ
or WRITE is reported to the Node Directory. -/
def endRequest (l : Link) (t : Tag) (r : Request) (outcome : Reason) (data : List Byte) (s : State) : State :=
  let discarded := s.discards r
  let s := freeTag l t r s
  if r.isIdent then identEnded r.node outcome data s
  else reportEnding r.node outcome discarded (handOver l r outcome data s)

/-! ## HELLO frames and pins -/

/-- R88: the node has restarted. -/
def restartNode (n : Node) (s : State) : State :=
  issueIdent n (leavePresent n .identifying (some .restart) .nodeRestarted (nodeEvent .nodeRestarted n .none 0 s))

/-- R87: a HELLO of node `n` is taken. -/
def takeHello (n : Node) (s : State) : State :=
  if s.linkState (nodeLink n) = .up then
    match s.presence n with
    | .absent => beginIdent n .found s
    | .present => restartNode n s
    | .identifying => s
    | .quarantined => s
    | .unknown => s
  else s

/-- The recorded identity matches the pin in vendor and model code (R92). -/
def NodeRecord.matchesPin (r : NodeRecord) : Bool := r.identity.any fun i => pinAccepts r.pin i.vendor i.model

/-- The recorded model code, 0 where none is recorded (R94, R168). -/
def NodeRecord.modelCode (r : NodeRecord) : Word16 := (r.identity.map Identity.model).getD 0

/-- R92: a pin is set and compared with the record at once. -/
def pinNode (n : Node) (pin : Pin) (s : State) : State :=
  let s := s.modNode n fun r => { r with pin := some pin }
  match s.presence n, (s.nodes.get n).matchesPin with
  | .present, true => s
  | .present, false =>
    leavePresent n .quarantined none .quarantined
      (nodeEvent .nodeQuarantined n .pin (s.nodes.get n).modelCode s)
  | .quarantined, true => beginIdent n .lift s
  | .quarantined, false => s
  | .unknown, _ => s
  | .absent, _ => s
  | .identifying, _ => s

/-- R93: a pin is removed, and a quarantine lifted. -/
def unpinNode (n : Node) (s : State) : State :=
  let s := s.modNode n fun r => { r with pin := none }
  if s.presence n = .quarantined then beginIdent n .lift s else s

end Sys2Proof.Machine
end

