-- ==== Sys2Proof/Machine/Links.lean ====
section
/-!
DEFINITION. The link controllers: good and bad frames, departures, training, silence, hold-off (Chapter 6), and the arbiter's
handling of responses, timer expiries and notices (sections 7.3, 7.4 and 7.6).
-/

namespace Sys2Proof.Machine

/-! ## Departures (R104) -/

/-- R104: the failure reason a departure hands to the blocks: STOPPED for a stop, LINK_DOWN for a departure to DOWN. -/
def failureReason (why : Reason) : Reason := if why = .stopped then .stopped else .linkDown

/-- R98, R104, R105, R106: the link record at a departure from a running state to `next`; the receiver ignores the line from
then on. -/
def LinkRecord.depart (k : LinkRecord) (next : LinkState) (why : Reason) (count : Word32) : LinkRecord :=
  { k with state := next, lastReason := why, stamp := low16 count, deadline := none,
           holdOff := if next = .down then some (count + 100) else none, received := [] }

/-- R97: the transmitter goes quiet, and a frame being sent is cut short. -/
def goQuiet (l : Link) (s : State) : State := s.modArbiter l fun a => { a with txOrder := [], onLine := none }

/-- R104, R105: LINK_DOWN is broadcast at each entry to DOWN, and at a stop from ENUMERATING or UP. -/
def announces (left next : LinkState) : Bool :=
  decide (next = .down) || decide (left = .enumerating) || decide (left = .up)

/-- R124: the arbiter's part of a departure. -/
def departArbiter (l : Link) (fail : Reason) (s : State) : State :=
  let s := endRequests l (fun _ => true) (fun _ => fail) s
  let s := endFetches l (fun _ => true) fail s
  s.modArbiter l fun a => { a with idents := [] }

/-- R50, R60: the write queue's part of a departure. -/
def departWrites (l : Link) (fail : Reason) (s : State) : State :=
  let s := failWrites l (fun r => decide (r.state = .queued ∨ r.state = .held)) fail s
  lapseReservations l (fun _ => true) fail s

/-- R91: the four nodes of the link become UNKNOWN. -/
def departNodes (l : Link) (s : State) : State :=
  (linkNodes l).foldl (fun s n =>
    s.modNode n fun r => { r with presence := .unknown, cause := none, timeouts := 0 }) s

/-- Both the arbiter and the write queue will report to hosts (R60, R159). -/
def State.departingBoth (s : State) (l : Link) : Bool :=
  s.endingsReported l (fun _ => true) (fun _ => true)
    && ((s.writeQueues.get l).order.any fun r => decide (r.state = .queued ∨ r.state = .held))

/-- R104: a link leaves TRAINING, ENUMERATING or UP for `next` with reason `why`. -/
def departLink (l : Link) (next : LinkState) (why : Reason) (s : State) : State :=
  let left := s.linkState l
  let wasPresent := (linkNodes l).filter fun n => s.presence n = .present
  let fail := failureReason why
  let s := goQuiet l (s.modLink l fun k => k.depart next why s.timeBase)
  let s := if announces left next then
      broadcast (eventOf .linkDown (byteOf l.val) why.code (left.code.setWidth 16)) s
    else s
  let s := emptyPollQueue l (departNodes l s)
  let s := eitherOrder (s.departingBoth l) (departArbiter l fail) (departWrites l fail) s
  forEntries (fun e => wasPresent.contains e.node) suspendEntry s

/-! ## Entering TRAINING (R100, R106) -/

/-- R100, R106: what every entry to TRAINING sets: state, stamp, SYNC run, consecutive bad frames, deadline; the hold-off
end goes. -/
def LinkRecord.train (k : LinkRecord) (count : Word32) : LinkRecord :=
  { k with state := .training, stamp := low16 count, syncRun := 0, consecutiveBad := 0,
           deadline := some (count + 50), holdOff := none }

/-- R100: LINK_START clears the four counters. -/
def LinkRecord.clearCounters (k : LinkRecord) : LinkRecord :=
  { k with badFrames := 0, retries := 0, timeouts := 0, strays := 0 }

/-! ## The parts of a millisecond event that a link takes -/

/-- R101: the training deadline at the present count. -/
def trainingDeadline (l : Link) (s : State) : State :=
  if s.linkState l = .training ∧ (s.links.get l).deadline = some s.timeBase then
    departLink l .down .noPartner s
  else s

/-- R106: the hold-off end at the present count. -/
def holdOffEnd (l : Link) (s : State) : State :=
  if s.linkState l = .down ∧ (s.links.get l).holdOff = some s.timeBase then
    s.modLink l fun k => if k.autoRestart then k.train s.timeBase else { k with holdOff := none }
  else s

/-- R103: silence is judged in ENUMERATING and UP. -/
def LinkState.judgesSilence : LinkState → Bool
  | .enumerating => true
  | .up => true
  | .off => false
  | .training => false
  | .down => false

/-- R103: the silence count at a millisecond event; the activity judged is that since the previous one. -/
def LinkRecord.countSilence (k : LinkRecord) : LinkRecord :=
  { k with activity := false,
           silence := if k.state.judgesSilence then (if k.activity then 0 else k.silence + 1) else k.silence }

/-- R103: a silence count that has reached 5 takes the link DOWN. -/
def silenceReached (l : Link) (s : State) : State :=
  if (s.linkState l).judgesSilence ∧ 5 ≤ (s.links.get l).silence then departLink l .down .silent s else s

/-! ## Frames (R98, R99, R102) -/

/-- R98, R102: a bad frame in a running state is counted, and the eighth in a row takes the link DOWN; in OFF and DOWN
the receiver ignores the line. -/
def takeBadFrame (l : Link) (s : State) : State :=
  if !(s.linkState l).running then s
  else
    let s := s.modLink l fun k =>
      { k with badFrames := satInc k.badFrames, consecutiveBad := k.consecutiveBad + 1, activity := true,
               syncRun := if k.state = .training then 0 else k.syncRun }
    if 8 ≤ (s.links.get l).consecutiveBad then departLink l .down .errors s else s

/-- R98, R99, R103: what every good frame of a running link does before it is handed on; in TRAINING a frame other than
SYNC sets the SYNC run to 0. -/
def LinkRecord.goodFrame (k : LinkRecord) (sync : Bool) : LinkRecord :=
  { k with consecutiveBad := 0, activity := true,
           syncRun := if k.state = .training then (if sync then k.syncRun + 1 else 0) else k.syncRun }

/-- R99: a good frame is handed on to `f` in ENUMERATING and UP. -/
def takeGoodFrame (l : Link) (f : State → State) (s : State) : State :=
  match s.linkState l with
  | .off => s
  | .down => s
  | .training => s.modLink l fun k => k.goodFrame false
  | .enumerating => f (s.modLink l fun k => k.goodFrame false)
  | .up => f (s.modLink l fun k => k.goodFrame false)

/-- R99, R101: a good SYNC; the fourth in a row makes a TRAINING link ENUMERATING. -/
def takeSync (l : Link) (s : State) : State :=
  if !(s.linkState l).running then s
  else
    let s := s.modLink l fun k => k.goodFrame true
    if s.linkState l = .training ∧ 4 ≤ (s.links.get l).syncRun then enterEnumerating l s else s

/-! ## Responses (R117 to R120) -/

/-- R117: the number of data bytes a status calls for. -/
def Request.answerLength (r : Request) (status : Reason) : Nat :=
  if status = .ok then
    match r.kind with
    | .poll _ _ _ => r.length
    | .fetch _ _ _ => r.length
    | .ident => 8
    | .write => 0
  else 0

/-- R117: the request in flight that a response matches. -/
def State.matched (s : State) (l : Link) (t : Tag) (round : BitVec 2) (n : Node) (status : Reason)
    (data : List Byte) : Option Request :=
  match s.request l t with
  | none => none
  | some r =>
    if r.sentOnce ∧ ((s.arbiters.get l).tags.get t).round = round ∧ r.node = n ∧ data.length = r.answerLength status then
      some r
    else none

/-- R117, R119, R120: a response is taken. -/
def takeResponse (l : Link) (t : Tag) (round : BitVec 2) (n : Node) (status : Reason) (data : List Byte)
    (s : State) : State :=
  match s.matched l t round n status data with
  | none => s.modLink l fun k => { k with strays := satInc k.strays }
  | some r =>
    if status = .busy ∧ r.retriesLeft then resend l t s else endRequest l t r status data s

/-- R121: the timer of tag `t`'s request runs out; it runs only while the frame state is SENT. -/
def expireTimer (l : Link) (t : Tag) (s : State) : State :=
  match s.request l t with
  | none => s
  | some r =>
    if r.frame = .sent then
      let s := s.modLink l fun k => { k with timeouts := satInc k.timeouts }
      if r.retriesLeft then resend l t s else endRequest l t r .timeout [] s
    else s

/-! ## Notices (R125) -/

/-- R125: a notice of node `n` is taken. -/
def takeNotice (n : Node) (count : Byte) (address : Word16) (length : Byte) (s : State) : State :=
  if s.presence n ≠ .present then s
  else
    let c : BitVec 4 := count.setWidth 4
    let inSequence := decide (c = (s.nodes.get n).noticeCount + 1)
    let s := forEntries (fun e => decide (e.node = n)
        && (!inSequence || rangesShare address.toNat length.toNat e.first.toNat e.length)) markEntry s
    s.modNode n fun r => { r with noticeCount := c }

/-! ## The receiver (R98, R99, R173) -/

/-- R98, R99: a judged frame is taken: a good one is handed on by its kind. -/
def takeReceived (l : Link) (f : Received) (s : State) : State :=
  match f with
  | .bad => takeBadFrame l s
  | .sync => grants (takeSync l s)
  | .response tag round n status data => grants (takeGoodFrame l (takeResponse l tag round n status data) s)
  | .notice n count address length => grants (takeGoodFrame l (takeNotice n count address length) s)
  | .hello n => grants (takeGoodFrame l (takeHello n) s)

/-- R98, R173: the next frame of the bytes received on link `l` is judged and taken, and the bytes beyond it are kept; in OFF
and DOWN the receiver ignores the line. -/
def takeLine (l : Link) (bytes : List Byte) (s : State) : State :=
  if !(s.linkState l).running then s
  else
    let next := receiveFrame l ((s.links.get l).received ++ bytes)
    takeReceived l next.1 (s.modLink l fun k => { k with received := next.2 })

end Sys2Proof.Machine
end

