-- ==== Sys2Proof/Machine/Time.lean ====
section
/-!
DEFINITION. The millisecond event (R29) and its parts, each a step of its own that the event leaves open and that is taken at
the latest before the next event or host command (notes/assumptions/1).
-/

namespace Sys2Proof.Machine

/-- R41: the stale check of the present millisecond event, if it is still to be taken. -/
def takeStaleCheck (s : State) : State :=
  if s.due.stale then checkLimits { s with due := { s.due with stale := false } } else s

/-- R32, R33: the class ticks of the present millisecond event, if they are still to be taken. -/
def takeTicks (s : State) : State :=
  if s.due.ticks then grants (tickClasses { s with due := { s.due with ticks := false } }) else s

/-- R72: the lease check of the present millisecond event, if it is still to be taken. -/
def takeLeases (s : State) : State :=
  if s.due.leases then expireClaims { s with due := { s.due with leases := false } } else s

/-- R101: the training deadline of link `l` at the present millisecond event, if it is still to be judged. -/
def takeDeadline (l : Link) (s : State) : State :=
  if s.due.deadline.get l then
    trainingDeadline l { s with due := { s.due with deadline := upd s.due.deadline l fun _ => false } }
  else s

/-- R106: the hold-off end of link `l` at the present millisecond event, if it is still to be judged. -/
def takeHoldOff (l : Link) (s : State) : State :=
  if s.due.holdOff.get l then
    holdOffEnd l { s with due := { s.due with holdOff := upd s.due.holdOff l fun _ => false } }
  else s

/-- R103: the silence of link `l` at the present millisecond event, if it is still to be judged. -/
def takeSilence (l : Link) (s : State) : State :=
  if s.due.silence.get l then
    silenceReached l { s with due := { s.due with silence := upd s.due.silence l fun _ => false } }
  else s

/-- The link parts of the present millisecond event. -/
def takeLinkParts (l : Link) (s : State) : State := takeSilence l (takeHoldOff l (takeDeadline l s))

/-- R29, R32, R65: every part of the present millisecond event that is still open is taken. -/
def settle (s : State) : State :=
  takeLinkParts 1 (takeLinkParts 0 (takeLeases (takeTicks (takeStaleCheck s))))

/-- R29, R40, R103: the time base count advances, entries age, silence is counted, and the parts of the event at the new
count are opened. Parts of the event before it come first. -/
def millisecond (s : State) : State :=
  let s := settle s
  let s := ageEntries { s with timeBase := s.timeBase + 1 }
  let s := (s.modLink 0 LinkRecord.countSilence).modLink 1 LinkRecord.countSilence
  { s with due := EventParts.allDue }

end Sys2Proof.Machine
end

