-- ==== Sys2Proof/Machine/Commands.lean ====
section
/-!
DEFINITION. The host commands: their table (R152, R170), the owning rule of each, the taking of a command and its result
(Chapter 9), and the bus endings and address bytes under which a command can be taken (R132, R134, R141).
-/

namespace Sys2Proof.Machine

/-- The 22 host commands (R152). -/
inductive Command
  | defineEntry | leaveEntry | queryEntry | setWatch | clearWatch | setNotify | setAlias | clearAlias | fetch | drain
  | claim | renew | unclaim | queryNode | queryLink | clearHost
  | setClassPeriod | setLinkTiming | linkStart | linkStop | pinNode | unpinNode
  deriving DecidableEq, Repr

/-- The command addresses (R170). -/
def Command.address : Command → Byte
  | .defineEntry => 0x80 | .leaveEntry => 0x81 | .queryEntry => 0x82 | .setWatch => 0x84 | .clearWatch => 0x85
  | .setNotify => 0x86 | .setAlias => 0x88 | .clearAlias => 0x89 | .fetch => 0x8C | .drain => 0x8D
  | .claim => 0x90 | .renew => 0x91 | .unclaim => 0x92 | .queryNode => 0x94 | .queryLink => 0x95 | .clearHost => 0x98
  | .setClassPeriod => 0xA0 | .setLinkTiming => 0xA1 | .linkStart => 0xA2 | .linkStop => 0xA3 | .pinNode => 0xA4
  | .unpinNode => 0xA5

/-- The parameter bytes each command takes (R152). -/
def Command.byteCount : Command → Nat
  | .defineEntry => 5 | .leaveEntry => 1 | .queryEntry => 1 | .setWatch => 9 | .clearWatch => 1 | .setNotify => 3
  | .setAlias => 9 | .clearAlias => 1 | .fetch => 4 | .drain => 1 | .claim => 2 | .renew => 2 | .unclaim => 1
  | .queryNode => 2 | .queryLink => 2 | .clearHost => 1 | .setClassPeriod => 3 | .setLinkTiming => 4 | .linkStart => 1
  | .linkStop => 1 | .pinNode => 5 | .unpinNode => 1

/-- The commands only the setup host may give (R152, R153). -/
def Command.setupOnly : Command → Bool
  | .setClassPeriod => true | .setLinkTiming => true | .linkStart => true | .linkStop => true | .pinNode => true
  | .unpinNode => true
  | .defineEntry => false | .leaveEntry => false | .queryEntry => false | .setWatch => false | .clearWatch => false
  | .setNotify => false | .setAlias => false | .clearAlias => false | .fetch => false | .drain => false
  | .claim => false | .renew => false | .unclaim => false | .queryNode => false | .queryLink => false
  | .clearHost => false

/-- The commands in the order of the table of R152. -/
def allCommands : List Command :=
  [.defineEntry, .leaveEntry, .queryEntry, .setWatch, .clearWatch, .setNotify, .setAlias, .clearAlias, .fetch, .drain,
   .claim, .renew, .unclaim, .queryNode, .queryLink, .clearHost,
   .setClassPeriod, .setLinkTiming, .linkStart, .linkStop, .pinNode, .unpinNode]

/-- The command at a position of the control window (R141, R170). -/
def commandAt (position : Byte) : Option Command := allCommands.find? fun c => c.address = position

/-- What an owning rule answers: status, value bytes, and the state after its changes (R154). -/
structure Reply where
  status : Status
  values : List Byte
  state : State
  deriving DecidableEq, Repr

/-- A refusal that changes nothing and carries no value (R154). -/
def refuse (status : Status) (s : State) : Reply := { status := status, values := [], state := s }

/-! ## Mirror Table commands (section 1.3, section 10.5) -/

/-- The slot whose entry `p` accepts, the lowest one. -/
def State.findEntry (s : State) (p : Entry → Bool) : Option SlotIx :=
  (List.finRange 48).find? fun i => (s.entry i).any p

/-- The lowest-numbered free slot (R11). -/
def State.lowestFreeSlot (s : State) : Option SlotIx := (List.finRange 48).find? fun i => (s.entry i).isNone

/-- R12: the state of a new entry by its node's presence and max length. -/
def State.createdState (s : State) (n : Node) (length : Nat) : EntryState :=
  if s.presence n ≠ .present then .suspended else if s.maxLength n < length then .failed else .unfilled

/-- R12: the values a new entry starts with. -/
def newEntry (n : Node) (first : Word16) (length : Nat) (h : Host) (c : RateClass) (st : EntryState) : Entry :=
  { node := n, first := first, data := List.replicate length none, state := st, age := 0, epoch := 0, phase := .idle,
    repoll := false, fault := if st = .failed then .tooLong else .none, skipped := 0,
    holders := upd (Vector.replicate 3 none) h fun _ => some { cls := c, watch := none } }

/-- R12: an entry is created in the free slot `i`. -/
def createEntry (i : SlotIx) (n : Node) (first : Word16) (length : Nat) (h : Host) (c : RateClass) (s : State) :
    State :=
  let st := s.createdState n length
  let s := s.modSlot i fun sl => { sl with entry := some (newEntry n first length h c st) }
  match st with
  | .unfilled => queuePoll i s
  | .failed => notify h (eventOf .entryFailed (byteOf i.val) Reason.tooLong.code 0) s
  | .suspended => s
  | .valid => s
  | .stale => s

/-- R9 to R12. -/
def cmdDefineEntry (h : Host) (ps : List Byte) (s : State) : Reply :=
  match ps with
  | [nb, a1, a0, length, cb] =>
    match nodeOfRef nb, RateClass.ofByte cb with
    | some n, some c =>
      let first := word16 a1 a0
      if !rangeOk first length then refuse .badParam s
      else
        match s.findEntry fun e => decide (e.node = n ∧ e.first = first ∧ e.length = length.toNat) with
        | some i =>
          if (s.entry i).any fun e => e.heldBy h then
            { status := .updated, values := [byteOf i.val],
              state := meetLimit i (s.modEntry i (Entry.modHolder h (Option.map fun r => { r with cls := c }))) }
          else
            { status := .joined, values := [byteOf i.val],
              state := meetLimit i (s.modEntry i (Entry.modHolder h fun _ => some { cls := c, watch := none })) }
        | none =>
          if (s.findEntry fun e => e.touchedBy n first.toNat length.toNat).isSome then refuse .overlap s
          else
            match s.lowestFreeSlot with
            | none => refuse .tableFull s
            | some i =>
              { status := .ok, values := [byteOf i.val, (s.slots.get i).generation],
                state := grants (createEntry i n first length.toNat h c s) }
    | _, _ => refuse .badParam s
  | _ => refuse .badParam s

/-- R13. -/
def cmdLeaveEntry (h : Host) (ps : List Byte) (s : State) : Reply :=
  match ps with
  | [ib] =>
    match slotOfByte ib with
    | none => refuse .badParam s
    | some i =>
      match s.entry i with
      | none => refuse .notFound s
      | some e =>
        if e.heldBy h then
          { status := .ok, values := [byteOf (e.modHolder h fun _ => none).holderCount], state := removeHolder h i s }
        else refuse .notHolder s
  | _ => refuse .badParam s

/-- A holder's class nibble, 0xF for a host that does not hold the entry (R168, R172). -/
def classNibble (r : Option Holder) : Byte := (r.map fun x => x.cls.code).getD 0xF

/-- R15, R172: the value bytes of QUERY_ENTRY for an entry in use. -/
def entryBytes (s : State) (i : SlotIx) (e : Entry) : List Byte :=
  [BitVec.ofNat 8 (e.state.code.toNat + 16 * (byteOfBool e.hasData).toNat + 32 * e.phase.code.toNat),
   nibbles (classNibble (e.holders.get 0)) (classNibble (e.holders.get 1)),
   nibbles (classNibble (e.holders.get 2)) (s.effective e).code]
    ++ bytes16 e.age ++ bytes16 e.epoch ++ [e.skipped, e.fault.code, (s.slots.get i).generation]

/-- R15. -/
def cmdQueryEntry (_h : Host) (ps : List Byte) (s : State) : Reply :=
  match ps with
  | [ib] =>
    match slotOfByte ib with
    | none => refuse .badParam s
    | some i =>
      match s.entry i with
      | none => { status := .notFound, values := [(s.slots.get i).generation], state := s }
      | some e => { status := .ok, values := entryBytes s i e, state := s }
  | _ => refuse .badParam s

/-- Host `h`'s watch on the entry in slot `i`. -/
def State.watchOf (s : State) (h : Host) (i : SlotIx) : Option Watch :=
  (s.entry i).bind fun e => (e.holders.get h).bind Holder.watch

/-- R164. -/
def cmdSetWatch (h : Host) (ps : List Byte) (s : State) : Reply :=
  match ps with
  | [ib, l3, l2, l1, l0, h3, h2, h1, h0] =>
    let low := word32 l3 l2 l1 l0
    let high := word32 h3 h2 h1 h0
    match slotOfByte ib with
    | none => refuse .badParam s
    | some i =>
      if high < low then refuse .badParam s
      else
        match s.entry i with
        | none => refuse .notFound s
        | some e =>
          if !e.heldBy h then refuse .notHolder s
          else if 4 < e.length then refuse .badParam s
          else
            let w : Watch := { low := low, high := high, zone := .unknown }
            let s := evaluateWatch i h
              (s.modEntry i (Entry.modHolder h (Option.map fun r => { r with watch := some w })))
            { status := .ok, values := [((s.watchOf h i).map fun w => w.zone.code).getD 0], state := s }
  | _ => refuse .badParam s

/-- R166. -/
def cmdClearWatch (h : Host) (ps : List Byte) (s : State) : Reply :=
  match ps with
  | [ib] =>
    match slotOfByte ib with
    | none => refuse .badParam s
    | some i =>
      match s.entry i with
      | none => refuse .notFound s
      | some e =>
        if !e.heldBy h then refuse .notHolder s
        else
          { status := .ok, values := [byteOfBool (s.watchOf h i).isSome],
            state := s.modEntry i (Entry.modHolder h (Option.map fun r => { r with watch := none })) }
  | _ => refuse .badParam s

/-! ## Event Unit and port commands -/

/-- R163. -/
def cmdSetNotify (h : Host) (ps : List Byte) (s : State) : Reply :=
  match ps with
  | [eb, m1, m0] =>
    let mask := word16 m1 m0
    match flagOfByte eb with
    | none => refuse .badParam s
    | some enable =>
      if 0x07FF#16 < mask then refuse .badParam s
      else
        let hs := s.hosts.get h
        { status := .ok, values := byteOfBool hs.notifyEnable :: bytes16 hs.mask,
          state := s.modHost h fun hs => { hs with notifyEnable := enable, mask := mask } }
  | _ => refuse .badParam s

/-- R136: the parameters of SET_ALIAS that are in range give a slot number and the slot's contents. -/
def aliasParams (ps : List Byte) : Option (AliasIx × AliasSlot) :=
  match ps with
  | [kb, ab, nb, b1, b0, z1, z0, xb, tb] =>
    match aliasIxOfByte kb, nodeOfRef nb, Access.ofByte xb, flagOfByte tb with
    | some k, some n, some access, some strict =>
      let base := word16 b1 b0
      let size := (word16 z1 z0).toNat
      if 0x08 ≤ ab.toNat ∧ ab.toNat ≤ 0x77 ∧ 1 ≤ size ∧ size ≤ 256 ∧ base.toNat + size - 1 ≤ 65535 then
        some (k, { address := ab.setWidth 7, node := n, base := base, size := size, access := access, strict := strict })
      else none
    | _, _, _, _ => none
  | _ => none

/-- R136: the address is the control address or that of another in-use slot of the host. -/
def State.aliasTaken (s : State) (h : Host) (k : AliasIx) (a : BitVec 7) : Bool :=
  decide (a = s.controlAddress) || (List.finRange 8).any fun j =>
    decide (j ≠ k) && ((s.hosts.get h).aliases.get j).any fun w => decide (w.address = a)

/-- R136. -/
def cmdSetAlias (h : Host) (ps : List Byte) (s : State) : Reply :=
  match aliasParams ps with
  | none => refuse .badParam s
  | some (k, w) =>
    if s.aliasTaken h k w.address then refuse .duplicateAlias s
    else
      { status := .ok, values := [byteOf k.val],
        state := s.modHost h fun hs => { hs with aliases := upd hs.aliases k fun _ => some w } }

/-- R137. -/
def cmdClearAlias (h : Host) (ps : List Byte) (s : State) : Reply :=
  match ps with
  | [kb] =>
    match aliasIxOfByte kb with
    | none => refuse .badParam s
    | some k =>
      if ((s.hosts.get h).aliases.get k).isNone then refuse .notFound s
      else
        { status := .ok, values := [byteOf k.val],
          state := s.modHost h fun hs => { hs with aliases := upd hs.aliases k fun _ => none } }
  | _ => refuse .badParam s

/-! ## FETCH and DRAIN -/

/-- Host `h` has a fetch in flight on link `l` (R127, R130). -/
def State.fetchInFlight (s : State) (h : Host) (l : Link) : Bool :=
  (List.finRange 8).any fun t => (s.request l t).any fun r => match r.kind with
    | .fetch x _ _ => decide (x = h)
    | .poll _ _ _ => false
    | .write => false
    | .ident => false

/-- Host `h` has a fetch pending or in flight (R127). -/
def State.fetchOpen (s : State) (h : Host) : Bool :=
  (List.finRange 2).any fun l =>
    s.fetchInFlight h l || (s.arbiters.get l).fetches.any fun f => decide (f.host = h)

/-- R127: an accepted fetch joins the tail of its link's pending fetch list. -/
def acceptFetch (h : Host) (n : Node) (address : Word16) (length : Nat) (s : State) : State :=
  let ticket := incSkipZero (s.hosts.get h).ticketCounter
  let item : FetchItem :=
    { host := h, ticket := ticket, node := n, address := address, length := length, reported := true }
  (s.modHost h fun hs => { hs with ticketCounter := ticket }).modArbiter (nodeLink n)
    fun a => { a with fetches := a.fetches ++ [item] }

/-- R127: the checks of FETCH in their order. -/
def cmdFetch (h : Host) (ps : List Byte) (s : State) : Reply :=
  match ps with
  | [nb, a1, a0, length] =>
    match nodeOfRef nb with
    | none => refuse .badParam s
    | some n =>
      let address := word16 a1 a0
      if !rangeOk address length then refuse .badParam s
      else if s.fetchOpen h then refuse .busy s
      else if s.linkState (nodeLink n) ≠ .up then refuse .linkNotUp s
      else if s.presence n ≠ .present then refuse .nodeNotPresent s
      else if s.maxLength n < length.toNat then refuse .badParam s
      else
        { status := .accepted, values := [incSkipZero (s.hosts.get h).ticketCounter],
          state := grants (acceptFetch h n address length.toNat s) }
  | _ => refuse .badParam s

/-- R61: a record that a DRAIN of host `h` covers. -/
def drainCovers (h : Host) (r : WriteRecord) : Bool :=
  decide (r.origin = h) && r.reported
    && decide (r.state = .queued ∨ r.state = .outstanding ∨ r.state = .held)

/-- R61: the number of records a DRAIN of host `h` covers, in either queue. -/
def State.drainCount (s : State) (h : Host) : Nat :=
  ((List.finRange 2).map fun l => ((s.writeQueues.get l).order.filter (drainCovers h)).length).sum

/-- R61: the covered records are marked. -/
def markCovered (h : Host) (s : State) : State :=
  let one := fun (q : WriteQueue) =>
    { q with order := q.order.map fun r => if drainCovers h r then { r with covered := true } else r }
  (s.modWrites 0 one).modWrites 1 one

/-- R61. -/
def cmdDrain (h : Host) (_ps : List Byte) (s : State) : Reply :=
  let hs := s.hosts.get h
  let covered := s.drainCount h
  if hs.drain.isSome then refuse .busy s
  else if covered = 0 then
    { status := .ok, values := bytes16 hs.seqCounter ++ [0],
      state := notify h (eventOf .drainDone 0 Reason.ok.code 0) s }
  else
    let record : DrainRecord := { counter := hs.seqCounter, covered := covered, failed := 0 }
    { status := .accepted, values := bytes16 hs.seqCounter ++ [byteOf covered],
      state := (markCovered h s).modHost h fun hs => { hs with drain := some record } }

/-! ## Claim commands (sections 4.2 and 4.3) -/

/-- R66, R67. -/
def cmdClaim (h : Host) (ps : List Byte) (s : State) : Reply :=
  match ps with
  | [nb, lease] =>
    match nodeOfRef nb with
    | none => refuse .badParam s
    | some n =>
      if lease = 0 then refuse .badParam s
      else
        let c := s.claims.get n
        match c.holder with
        | none =>
          let s := startLease n h lease s
          { status := .granted, values := bytes16 (s.leaseEndLow n), state := s }
        | some k =>
          if k.host = h then { status := .alreadyHeld, values := bytes16 (s.leaseEndLow n), state := s }
          else
            match c.waitIndex h with
            | some p => { status := .alreadyWaiting, values := [byteOf (p + 1)], state := s }
            | none =>
              { status := .waiting, values := [byteOf (c.waiters.length + 1)],
                state := s.modClaim n fun c => { c with waiters := c.waiters ++ [{ host := h, lease := lease }] } }
  | _ => refuse .badParam s

/-- R69. -/
def cmdRenew (h : Host) (ps : List Byte) (s : State) : Reply :=
  match ps with
  | [nb, lease] =>
    match nodeOfRef nb with
    | none => refuse .badParam s
    | some n =>
      if lease = 0 then refuse .badParam s
      else if s.holdsClaim h n then
        let s := startLease n h lease s
        { status := .ok, values := bytes16 (s.leaseEndLow n), state := s }
      else refuse .notHolder s
  | _ => refuse .badParam s

/-- R70, R71. -/
def cmdUnclaim (h : Host) (ps : List Byte) (s : State) : Reply :=
  match ps with
  | [nb] =>
    match nodeOfRef nb with
    | none => refuse .badParam s
    | some n =>
      if s.holdsClaim h n then { status := .ok, values := [1], state := releaseClaim n s }
      else if ((s.claims.get n).waitIndex h).isSome then { status := .ok, values := [2], state := withdrawWait n h s }
      else refuse .notHolder s
  | _ => refuse .badParam s

/-! ## Queries (R94, R109, R172) -/

/-- R94, R172: QUERY_NODE page 0. -/
def nodePage0 (r : NodeRecord) : List Byte :=
  let i := r.identity
  [nibbles r.presence.code (identCauseCode r.cause),
   BitVec.ofNat 8 ((byteOfBool i.isSome).toNat + 2 * (byteOfBool (i.any Identity.sendsNotices)).toNat)]
    ++ bytes16 ((i.map Identity.vendor).getD 0) ++ bytes16 r.modelCode
    ++ [(i.map Identity.revision).getD 0, byteOf ((i.map Identity.maxLength).getD 0), r.noticeCount.setWidth 8,
        byteOf r.timeouts]

/-- The nibble of a waiting host (R172). For a position at which no host waits R172 gives no value, and R168 gives 0xF to "a node
nibble or class nibble" and 0 to claim fields that are not held: that it reads 0xF is the model's reading (DEDUCED,
notes/assumptions/30). -/
def waiterNibble (w : Option Waiter) : Byte := (w.map fun x => byteOf x.host.val).getD 0xF

/-- R77, R94, R172: QUERY_NODE page 1. -/
def nodePage1 (r : NodeRecord) (c : ClaimRecord) : List Byte :=
  [byteOfBool r.pin.isSome] ++ bytes16 ((r.pin.map Pin.vendor).getD 0) ++ bytes16 ((r.pin.map Pin.model).getD 0)
    ++ [(c.holder.map fun k => byteOf k.host.val).getD 0xFF, (c.holder.map Holding.lease).getD 0]
    ++ bytes16 ((c.holder.map fun k => low16 k.leaseEnd).getD 0)
    ++ [nibbles (waiterNibble c.waiters[0]?) (waiterNibble c.waiters[1]?)]

/-- R94. -/
def cmdQueryNode (_h : Host) (ps : List Byte) (s : State) : Reply :=
  match ps with
  | [nb, page] =>
    match nodeOfRef nb with
    | none => refuse .badParam s
    | some n =>
      if page = 0 then { status := .ok, values := nodePage0 (s.nodes.get n), state := s }
      else if page = 1 then { status := .ok, values := nodePage1 (s.nodes.get n) (s.claims.get n), state := s }
      else refuse .badParam s
  | _ => refuse .badParam s

/-- R109, R172: QUERY_LINK page 0. -/
def linkPage0 (s : State) (l : Link) : List Byte :=
  let k := s.links.get l
  [k.state.code, k.lastReason.code] ++ bytes16 k.stamp
    ++ [k.timeout, byteOf k.retryLimit, byteOfBool k.autoRestart, byteOf k.consecutiveBad, byteOf (s.presentCount l),
        byteOf (s.arbiters.get l).inUse]

/-- R109, R172: QUERY_LINK page 1. -/
def linkPage1 (k : LinkRecord) : List Byte :=
  bytes16 k.badFrames ++ bytes16 k.retries ++ bytes16 k.timeouts ++ bytes16 k.strays

/-- R109. -/
def cmdQueryLink (_h : Host) (ps : List Byte) (s : State) : Reply :=
  match ps with
  | [lb, page] =>
    match linkOfByte lb with
    | none => refuse .badParam s
    | some l =>
      if page = 0 then { status := .ok, values := linkPage0 s l, state := s }
      else if page = 1 then { status := .ok, values := linkPage1 (s.links.get l), state := s }
      else refuse .badParam s
  | _ => refuse .badParam s

/-! ## CLEAR_HOST (R28, R63, R76, R130, R149, R156, R167) -/

/-- R28: host `h`'s holder records are removed, in ascending index. -/
def clearHolders (h : Host) (s : State) : State := forEntries (fun e => e.heldBy h) (removeHolder h) s

/-- The number of holder records of host `h` (R156). -/
def State.holdings (s : State) (h : Host) : Nat :=
  ((List.finRange 48).filter fun i => (s.entry i).any fun e => e.heldBy h).length

/-- R130: host `h`'s fetch is no longer reported. -/
def Request.unreport (h : Host) (r : Request) : Request :=
  match r.kind with
  | .fetch x ticket reported => { r with kind := .fetch x ticket (reported && decide (x ≠ h)) }
  | .poll _ _ _ => r
  | .write => r
  | .ident => r

/-- R130: host clearing of `h` in one arbiter. -/
def clearFetch (h : Host) (l : Link) (s : State) : State :=
  forTags (fun t s => s.modArbiter l fun a => a.modTag t fun tr => { tr with request := tr.request.map (Request.unreport h) })
    (s.modArbiter l fun a => { a with fetches := a.fetches.filter fun f => f.host ≠ h })

/-- R130, R149: host clearing in the port: alias slots, read report and fetch buffer. -/
def HostState.clearPort (hs : HostState) : HostState :=
  { hs with aliases := Vector.replicate 8 none, report := ReadReport.empty, fetchBuffer := none }

/-- R167: host clearing in the Event Unit. -/
def HostState.clearEvents (hs : HostState) : HostState := { hs with events := [], notifyEnable := false, mask := 0 }

/-- R156: the parts of host clearing in their order. -/
def clearHost (h : Host) (s : State) : State :=
  let s := clearClaims h (clearWrites h (clearHolders h s))
  ((clearFetch h 1 (clearFetch h 0 s)).modHost h HostState.clearPort).modHost h HostState.clearEvents

/-- R156. -/
def cmdClearHost (h : Host) (_ps : List Byte) (s : State) : Reply :=
  { status := .ok, values := [byteOf (s.holdings h), byteOf (clearableWrites h s), byteOf (clearableClaims h s)],
    state := clearHost h s }

/-! ## Setup-host commands -/

/-- R30: the ten periods. -/
def periodLegal (p : Word16) : Bool :=
  [2#16, 4#16, 8#16, 16#16, 32#16, 64#16, 128#16, 256#16, 512#16, 1024#16].contains p

/-- The timed class a parameter byte names; NOTICE is none (R31). -/
def timedClassOfByte (b : Byte) : Option (Fin 4) := if h : b.toNat < 4 then some ⟨b.toNat, h⟩ else none

/-- R31, R43. -/
def cmdSetClassPeriod (_h : Host) (ps : List Byte) (s : State) : Reply :=
  match ps with
  | [cb, p1, p0] =>
    let period := word16 p1 p0
    match timedClassOfByte cb with
    | none => refuse .badParam s
    | some c =>
      if !periodLegal period then refuse .badParam s
      else
        let old := s.periods.get c
        { status := .ok, values := bytes16 old,
          state := if period = old then s else checkLimits { s with periods := upd s.periods c fun _ => period } }
  | _ => refuse .badParam s

/-- R107. -/
def cmdSetLinkTiming (_h : Host) (ps : List Byte) (s : State) : Reply :=
  match ps with
  | [lb, timeout, limit, ab] =>
    match linkOfByte lb, flagOfByte ab with
    | some l, some auto =>
      if timeout = 0 ∨ 7 < limit.toNat then refuse .badParam s
      else
        { status := .ok, values := [],
          state := s.modLink l fun k =>
            { k with timeout := timeout, retryLimit := limit.toNat, autoRestart := auto } }
    | _, _ => refuse .badParam s
  | _ => refuse .badParam s

/-- R100. -/
def cmdLinkStart (_h : Host) (ps : List Byte) (s : State) : Reply :=
  match ps with
  | [lb] =>
    match linkOfByte lb with
    | none => refuse .badParam s
    | some l =>
      if (s.linkState l).running then refuse .busy s
      else
        { status := .ok, values := [(s.linkState l).code],
          state := (s.modLink l fun k => k.clearCounters.train s.timeBase).modArbiter l
            fun a => { a with nextClass := .write } }
  | _ => refuse .badParam s

/-- R105. -/
def cmdLinkStop (_h : Host) (ps : List Byte) (s : State) : Reply :=
  match ps with
  | [lb] =>
    match linkOfByte lb with
    | none => refuse .badParam s
    | some l =>
      let st := s.linkState l
      { status := .ok, values := [st.code],
        state := match st with
          | .off => s
          | .down => s.modLink l fun k => { k with state := .off, stamp := low16 s.timeBase, holdOff := none }
          | .training => departLink l .off .stopped s
          | .enumerating => departLink l .off .stopped s
          | .up => departLink l .off .stopped s }
  | _ => refuse .badParam s

/-- R92. -/
def cmdPinNode (_h : Host) (ps : List Byte) (s : State) : Reply :=
  match ps with
  | [nb, v1, v0, m1, m0] =>
    match nodeOfRef nb with
    | none => refuse .badParam s
    | some n =>
      let s := grants (pinNode n { vendor := word16 v1 v0, model := word16 m1 m0 } s)
      { status := .ok, values := [(s.presence n).code], state := s }
  | _ => refuse .badParam s

/-- R93. -/
def cmdUnpinNode (_h : Host) (ps : List Byte) (s : State) : Reply :=
  match ps with
  | [nb] =>
    match nodeOfRef nb with
    | none => refuse .badParam s
    | some n =>
      let s := grants (unpinNode n s)
      { status := .ok, values := [(s.presence n).code], state := s }
  | _ => refuse .badParam s

/-! ## Taking a command (R150 to R155) -/

/-- The owning rule of each command (R152). -/
def Command.owner : Command → Host → List Byte → State → Reply
  | .defineEntry => cmdDefineEntry | .leaveEntry => cmdLeaveEntry | .queryEntry => cmdQueryEntry
  | .setWatch => cmdSetWatch | .clearWatch => cmdClearWatch | .setNotify => cmdSetNotify | .setAlias => cmdSetAlias
  | .clearAlias => cmdClearAlias | .fetch => cmdFetch | .drain => cmdDrain | .claim => cmdClaim | .renew => cmdRenew
  | .unclaim => cmdUnclaim | .queryNode => cmdQueryNode | .queryLink => cmdQueryLink | .clearHost => cmdClearHost
  | .setClassPeriod => cmdSetClassPeriod | .setLinkTiming => cmdSetLinkTiming | .linkStart => cmdLinkStart
  | .linkStop => cmdLinkStop | .pinNode => cmdPinNode | .unpinNode => cmdUnpinNode

/-- R152, R153: the checks before the owner, then the owning rule. -/
def Command.answer (c : Command) (h : Host) (ps : List Byte) (s : State) : Reply :=
  if ps.length ≠ c.byteCount then refuse .badParam s
  else if c.setupOnly && decide (h ≠ s.setupHost) then refuse .notPermitted s
  else c.owner h ps s

/-- R151, R154: the owner's answer becomes the host's result record, over the state after its changes. -/
def placeResult (h : Host) (c : Command) (r : Reply) : State := r.state.withResult h c.address r.status r.values

/-- R150: command `c` with parameters `ps` is taken from host `h`, after the millisecond event of the present count (R32,
R65). With no acknowledged data byte no command is taken. -/
def runCommand (c : Command) (h : Host) (ps : List Byte) (s : State) : State :=
  if ps.isEmpty then s else placeResult h c (c.answer h ps (settle s))

/-! ## Endings and address bytes (R132, R134, R141) -/

/-- R132, R150: the ending of a control window write: a command is taken if its register byte named one and a data byte
was acknowledged. -/
def controlWriteEnd (h : Host) (s : State) : State :=
  match s.transaction h with
  | .controlWrite (some b) bytes =>
    let s := s.modHost h fun hs => { hs with transaction := .idle }
    match commandAt b with
    | none => s
    | some c => runCommand c h bytes s
  | .controlWrite none _ => s.modHost h fun hs => { hs with transaction := .idle }
  | .idle => s
  | .ignored => s
  | .controlRead _ _ _ => s
  | .aliasWrite _ _ _ => s
  | .aliasRead _ _ _ _ _ _ => s

/-- R132: the ending of whatever transaction is open on the port. -/
def endTransaction (h : Host) (s : State) : State :=
  match s.transaction h with
  | .idle => s
  | .ignored => s.modHost h fun hs => { hs with transaction := .idle }
  | .controlWrite _ _ => controlWriteEnd h s
  | .controlRead _ _ _ => controlReadEnd h s
  | .aliasWrite _ _ _ => aliasWriteEnd h s
  | .aliasRead _ _ _ _ _ _ => aliasReadEnd h s

/-- R132, R150: the open transaction is the control window write that gave this very command, which the command's taking
ends; any other open transaction is ended first, by its own rule. -/
def closeFor (c : Command) (h : Host) (ps : List Byte) (s : State) : State :=
  if s.transaction h = .controlWrite (some c.address) ps then s.modHost h fun hs => { hs with transaction := .idle }
  else endTransaction h s

/-- R32, R65, R150: the state a command row is judged against: its own control write is closed, any other open transaction
has ended, and the millisecond event of the present count is complete. -/
def State.judged (c : Command) (h : Host) (ps : List Byte) (s : State) : State := settle (closeFor c h ps s)

/-- R150: a command row: the end of the control window write that gave command `c` its parameters. Where the row comes with no
such write open, no byte of one is received, and the alias pointer (R138) stays where it was (the model's choice,
notes/assumptions/29). -/
def takeCommand (c : Command) (h : Host) (ps : List Byte) (s : State) : State := runCommand c h ps (closeFor c h ps s)

/-- R132, R134: an address byte: the open transaction's ending is applied, then the address is decoded and judged. -/
def addressByte (h : Host) (a : BitVec 7) (d : Direction) (s : State) : State :=
  let s := endTransaction h s
  match s.decodeAddress h a, d with
  | .control, .write => s.modHost h (HostState.answerWith .ack (.controlWrite none []))
  | .control, .read => controlReadAddress h s
  | .window k w, .write => aliasWriteAddress h k w s
  | .window k w, .read => aliasReadAddress h k w s
  | .nothing, _ => refuseAddress h s

/-- R138, R141: a data byte of a control window write: acknowledged at a command address, up to 16 of them. -/
def controlDataByte (h : Host) (b : Byte) (s : State) : State :=
  match s.transaction h with
  | .controlWrite (some position) bytes =>
    if (commandAt position).isSome ∧ bytes.length < 16 then
      s.modHost h fun hs =>
        { hs with pointer := hs.pointer + 1, answer := .ack,
                  transaction := .controlWrite (some position) (bytes ++ [b]) }
    else s.modHost h fun hs => { hs with answer := .nack }
  | .controlWrite none _ => s
  | .ignored => refuseAddress h s
  | .idle => s
  | .controlRead _ _ _ => s
  | .aliasWrite _ _ _ => s
  | .aliasRead _ _ _ _ _ _ => s

end Sys2Proof.Machine
end

