-- ==== Sys2Proof/Machine/StepsCommand.lean ====
section
/-!
DEFINITION. The meanings of the 22 host commands: each is taken as R150 to R154 state, and answered by its owning rule.
-/

namespace Sys2Proof.Machine

/-- DEFINE_ENTRY (R9). -/
def execDefineEntry (h : Host) (ps : List Byte) (s : State) : Host.Outcome State Fault Refusal :=
  .next (takeCommand .defineEntry h ps s)

/-- LEAVE_ENTRY (R13). -/
def execLeaveEntry (h : Host) (ps : List Byte) (s : State) : Host.Outcome State Fault Refusal :=
  .next (takeCommand .leaveEntry h ps s)

/-- QUERY_ENTRY (R15). -/
def execQueryEntry (h : Host) (ps : List Byte) (s : State) : Host.Outcome State Fault Refusal :=
  .next (takeCommand .queryEntry h ps s)

/-- SET_WATCH (R164). -/
def execSetWatch (h : Host) (ps : List Byte) (s : State) : Host.Outcome State Fault Refusal :=
  .next (takeCommand .setWatch h ps s)

/-- CLEAR_WATCH (R166). -/
def execClearWatch (h : Host) (ps : List Byte) (s : State) : Host.Outcome State Fault Refusal :=
  .next (takeCommand .clearWatch h ps s)

/-- SET_NOTIFY (R163). -/
def execSetNotify (h : Host) (ps : List Byte) (s : State) : Host.Outcome State Fault Refusal :=
  .next (takeCommand .setNotify h ps s)

/-- SET_ALIAS (R136). -/
def execSetAlias (h : Host) (ps : List Byte) (s : State) : Host.Outcome State Fault Refusal :=
  .next (takeCommand .setAlias h ps s)

/-- CLEAR_ALIAS (R137). -/
def execClearAlias (h : Host) (ps : List Byte) (s : State) : Host.Outcome State Fault Refusal :=
  .next (takeCommand .clearAlias h ps s)

/-- FETCH (R127). -/
def execFetch (h : Host) (ps : List Byte) (s : State) : Host.Outcome State Fault Refusal :=
  .next (takeCommand .fetch h ps s)

/-- DRAIN (R61). -/
def execDrain (h : Host) (ps : List Byte) (s : State) : Host.Outcome State Fault Refusal :=
  .next (takeCommand .drain h ps s)

/-- CLAIM (R66). -/
def execClaim (h : Host) (ps : List Byte) (s : State) : Host.Outcome State Fault Refusal :=
  .next (takeCommand .claim h ps s)

/-- RENEW (R69). -/
def execRenew (h : Host) (ps : List Byte) (s : State) : Host.Outcome State Fault Refusal :=
  .next (takeCommand .renew h ps s)

/-- UNCLAIM (R70). -/
def execUnclaim (h : Host) (ps : List Byte) (s : State) : Host.Outcome State Fault Refusal :=
  .next (takeCommand .unclaim h ps s)

/-- QUERY_NODE (R94). -/
def execQueryNode (h : Host) (ps : List Byte) (s : State) : Host.Outcome State Fault Refusal :=
  .next (takeCommand .queryNode h ps s)

/-- QUERY_LINK (R109). -/
def execQueryLink (h : Host) (ps : List Byte) (s : State) : Host.Outcome State Fault Refusal :=
  .next (takeCommand .queryLink h ps s)

/-- CLEAR_HOST (R156). -/
def execClearHost (h : Host) (ps : List Byte) (s : State) : Host.Outcome State Fault Refusal :=
  .next (takeCommand .clearHost h ps s)

/-- SET_CLASS_PERIOD (R31). -/
def execSetClassPeriod (h : Host) (ps : List Byte) (s : State) : Host.Outcome State Fault Refusal :=
  .next (takeCommand .setClassPeriod h ps s)

/-- SET_LINK_TIMING (R107). -/
def execSetLinkTiming (h : Host) (ps : List Byte) (s : State) : Host.Outcome State Fault Refusal :=
  .next (takeCommand .setLinkTiming h ps s)

/-- LINK_START (R100). -/
def execLinkStart (h : Host) (ps : List Byte) (s : State) : Host.Outcome State Fault Refusal :=
  .next (takeCommand .linkStart h ps s)

/-- LINK_STOP (R105). -/
def execLinkStop (h : Host) (ps : List Byte) (s : State) : Host.Outcome State Fault Refusal :=
  .next (takeCommand .linkStop h ps s)

/-- PIN_NODE (R92). -/
def execPinNode (h : Host) (ps : List Byte) (s : State) : Host.Outcome State Fault Refusal :=
  .next (takeCommand .pinNode h ps s)

/-- UNPIN_NODE (R93). -/
def execUnpinNode (h : Host) (ps : List Byte) (s : State) : Host.Outcome State Fault Refusal :=
  .next (takeCommand .unpinNode h ps s)

end Sys2Proof.Machine
end

