-- ==== Sys2Proof/Machine/StepsLink.lean ====
section
/-!
DEFINITION. The meanings of the steps of the links: sending, response timers, and received frames. A frame row brings the
bytes received, and what the receiver judges them to be is what is taken (notes/assumptions/11).
-/

namespace Sys2Proof.Machine

/-- RESPONSE_TIMER_EXPIRY (R121). -/
def execResponseTimerExpiry (l : Link) (t : Tag) (s : State) : Host.Outcome State Fault Refusal :=
  .next (grants (expireTimer l t s))

/-- FRAME_SENT (R97, R116). -/
def execFrameSent (l : Link) (s : State) : Host.Outcome State Fault Refusal := .next (copySent l s)

/-- BAD_FRAME (R98, R102). -/
def execBadFrame (line : LineBytes) (s : State) : Host.Outcome State Fault Refusal := .next (takeLine line.link line.bytes s)

/-- SYNC_FRAME (R99, R101). -/
def execSyncFrame (l : Link) (s : State) : Host.Outcome State Fault Refusal := .next (takeLine l syncFrameBytes s)

/-- RESPONSE_FRAME (R117 to R120). -/
def execResponseFrame (l : Link) (tag : Tag) (round : BitVec 2) (node status : Byte) (data : List Byte) (s : State) :
    Host.Outcome State Fault Refusal :=
  .next (takeLine l (responseFrameBytes tag round node status data) s)

/-- NOTICE_FRAME (R125). -/
def execNoticeFrame (l : Link) (node count : Byte) (address : Word16) (length : Byte) (s : State) :
    Host.Outcome State Fault Refusal :=
  .next (takeLine l (noticeFrameBytes node count address length) s)

/-- HELLO_FRAME (R87). -/
def execHelloFrame (l : Link) (node : Byte) (s : State) : Host.Outcome State Fault Refusal :=
  .next (takeLine l (helloFrameBytes node) s)

end Sys2Proof.Machine
end

