-- ==== Sys2Proof/Machine/StepsPort.lean ====
section
/-!
DEFINITION. The meanings of the steps of a host's I2C port: address bytes, bytes of writes and reads, and endings
(Chapter 8, R161).
-/

namespace Sys2Proof.Machine

/-- ALIAS_WRITE_ADDRESS_BYTE (R48, R134). -/
def execAliasWriteAddressByte (h : Host) (a : BitVec 7) (s : State) : Host.Outcome State Fault Refusal := .next (addressByte h a .write s)

/-- ALIAS_READ_ADDRESS_BYTE (R134, R142). -/
def execAliasReadAddressByte (h : Host) (a : BitVec 7) (s : State) : Host.Outcome State Fault Refusal := .next (addressByte h a .read s)

/-- CONTROL_WRITE_ADDRESS_BYTE (R134): the address byte is the control address. -/
def execControlWriteAddressByte (h : Host) (s : State) : Host.Outcome State Fault Refusal := .next (addressByte h s.controlAddress .write s)

/-- CONTROL_READ_ADDRESS_BYTE (R134, R147): the address byte is the control address. -/
def execControlReadAddressByte (h : Host) (s : State) : Host.Outcome State Fault Refusal := .next (addressByte h s.controlAddress .read s)

/-- ADDRESS_NOT_ACKNOWLEDGED (R134): an address byte, decoded as every address byte is. -/
def execAddressNotAcknowledged (h : Host) (a : BitVec 7) (d : Direction) (s : State) : Host.Outcome State Fault Refusal := .next (addressByte h a d s)

/-- REGISTER_BYTE (R139). -/
def execRegisterByte (h : Host) (b : Byte) (s : State) : Host.Outcome State Fault Refusal := .next (registerByte h b s)

/-- ALIAS_WRITE_DATA_BYTE (R49, R140). -/
def execAliasWriteDataByte (h : Host) (b : Byte) (s : State) : Host.Outcome State Fault Refusal := .next (aliasDataByte h b s)

/-- CONTROL_WRITE_OTHER_POSITION (R141). -/
def execControlWriteOtherPosition (h : Host) (b : Byte) (s : State) : Host.Outcome State Fault Refusal := .next (controlDataByte h b s)

/-- ALIAS_READ_BYTE (R144). -/
def execAliasReadByte (h : Host) (s : State) : Host.Outcome State Fault Refusal := .next (aliasReadByte h s)

/-- ALIAS_WRITE_END (R51). -/
def execAliasWriteEnd (h : Host) (s : State) : Host.Outcome State Fault Refusal := .next (aliasWriteEnd h s)

/-- ALIAS_READ_END (R145). -/
def execAliasReadEnd (h : Host) (s : State) : Host.Outcome State Fault Refusal := .next (aliasReadEnd h s)

/-- CONTROL_READ_END (R161). -/
def execControlReadEnd (h : Host) (s : State) : Host.Outcome State Fault Refusal := .next (controlReadEnd h s)

/-- CONTROL_WRITE_DATA_BYTE (R141). -/
def execControlWriteDataByte (h : Host) (b : Byte) (s : State) : Host.Outcome State Fault Refusal := .next (controlDataByte h b s)

/-- CONTROL_READ_BYTE (R138, R147). -/
def execControlReadByte (h : Host) (s : State) : Host.Outcome State Fault Refusal := .next (controlReadByte h s)

end Sys2Proof.Machine
end

