-- ==== Sys2Proof/Machine/StepsTime.lean ====
section
/-!
DEFINITION. The meanings of RESET, of the millisecond event, and of the steps it brings.
-/

namespace Sys2Proof.Machine

/-- RESET (R133 and the "after reset" of every chapter): the straps are sampled and every block takes its reset values.
The commands that wait outside the part go on waiting. -/
def execReset (addrSel : Bool) (setupSel : BitVec 2) (s : State) : Host.Outcome State Fault Refusal :=
  .next (State.resetWith addrSel setupSel s.choices s.pending)

/-- MILLISECOND_EVENT (R29, R40, R103). -/
def execMillisecondEvent (s : State) : Host.Outcome State Fault Refusal := .next (millisecond s)

/-- CLASS_TICK (R32 to R34). -/
def execClassTick (s : State) : Host.Outcome State Fault Refusal := .next (takeTicks s)

/-- STALE_LIMIT_REACHED (R41). -/
def execStaleLimitReached (s : State) : Host.Outcome State Fault Refusal := .next (takeStaleCheck s)

/-- LEASE_EXPIRY (R72). -/
def execLeaseExpiry (s : State) : Host.Outcome State Fault Refusal := .next (takeLeases s)

/-- TRAINING_DEADLINE (R101). -/
def execTrainingDeadline (l : Link) (s : State) : Host.Outcome State Fault Refusal := .next (takeDeadline l s)

/-- HOLD_OFF_END (R106). -/
def execHoldOffEnd (l : Link) (s : State) : Host.Outcome State Fault Refusal := .next (takeHoldOff l s)

/-- SILENCE_DETECTED (R103). -/
def execSilenceDetected (l : Link) (s : State) : Host.Outcome State Fault Refusal := .next (takeSilence l s)

end Sys2Proof.Machine
end

