-- ==== Sys2Proof/Machine/Dispatch.lean ====
section
/-!
DEFINITION. The effect of each command of the part: one arm per row of spec/opcode_table.json.
-/

namespace Sys2Proof.Machine

def exec (i : Instr) (s : State) : Host.Outcome State Fault Refusal :=
  match i with
  | .reset addrSel setupSel => Sys2Proof.Machine.execReset addrSel setupSel s
  | .millisecondEvent => Sys2Proof.Machine.execMillisecondEvent s
  | .classTick => Sys2Proof.Machine.execClassTick s
  | .staleLimitReached => Sys2Proof.Machine.execStaleLimitReached s
  | .leaseExpiry => Sys2Proof.Machine.execLeaseExpiry s
  | .trainingDeadline l => Sys2Proof.Machine.execTrainingDeadline l s
  | .holdOffEnd l => Sys2Proof.Machine.execHoldOffEnd l s
  | .silenceDetected l => Sys2Proof.Machine.execSilenceDetected l s
  | .responseTimerExpiry l t => Sys2Proof.Machine.execResponseTimerExpiry l t s
  | .frameSent l => Sys2Proof.Machine.execFrameSent l s
  | .badFrame line => Sys2Proof.Machine.execBadFrame line s
  | .syncFrame l => Sys2Proof.Machine.execSyncFrame l s
  | .responseFrame l tag round node status data => Sys2Proof.Machine.execResponseFrame l tag round node status data s
  | .noticeFrame l node count address length => Sys2Proof.Machine.execNoticeFrame l node count address length s
  | .helloFrame l node => Sys2Proof.Machine.execHelloFrame l node s
  | .aliasWriteAddressByte h a => Sys2Proof.Machine.execAliasWriteAddressByte h a s
  | .aliasReadAddressByte h a => Sys2Proof.Machine.execAliasReadAddressByte h a s
  | .controlWriteAddressByte h => Sys2Proof.Machine.execControlWriteAddressByte h s
  | .controlReadAddressByte h => Sys2Proof.Machine.execControlReadAddressByte h s
  | .addressNotAcknowledged h a d => Sys2Proof.Machine.execAddressNotAcknowledged h a d s
  | .registerByte h b => Sys2Proof.Machine.execRegisterByte h b s
  | .aliasWriteDataByte h b => Sys2Proof.Machine.execAliasWriteDataByte h b s
  | .controlWriteOtherPosition h b => Sys2Proof.Machine.execControlWriteOtherPosition h b s
  | .aliasReadByte h => Sys2Proof.Machine.execAliasReadByte h s
  | .aliasWriteEnd h => Sys2Proof.Machine.execAliasWriteEnd h s
  | .aliasReadEnd h => Sys2Proof.Machine.execAliasReadEnd h s
  | .controlReadEnd h => Sys2Proof.Machine.execControlReadEnd h s
  | .defineEntry h ps => Sys2Proof.Machine.execDefineEntry h ps s
  | .leaveEntry h ps => Sys2Proof.Machine.execLeaveEntry h ps s
  | .queryEntry h ps => Sys2Proof.Machine.execQueryEntry h ps s
  | .setWatch h ps => Sys2Proof.Machine.execSetWatch h ps s
  | .clearWatch h ps => Sys2Proof.Machine.execClearWatch h ps s
  | .setNotify h ps => Sys2Proof.Machine.execSetNotify h ps s
  | .setAlias h ps => Sys2Proof.Machine.execSetAlias h ps s
  | .clearAlias h ps => Sys2Proof.Machine.execClearAlias h ps s
  | .fetch h ps => Sys2Proof.Machine.execFetch h ps s
  | .drain h ps => Sys2Proof.Machine.execDrain h ps s
  | .claim h ps => Sys2Proof.Machine.execClaim h ps s
  | .renew h ps => Sys2Proof.Machine.execRenew h ps s
  | .unclaim h ps => Sys2Proof.Machine.execUnclaim h ps s
  | .queryNode h ps => Sys2Proof.Machine.execQueryNode h ps s
  | .queryLink h ps => Sys2Proof.Machine.execQueryLink h ps s
  | .clearHost h ps => Sys2Proof.Machine.execClearHost h ps s
  | .setClassPeriod h ps => Sys2Proof.Machine.execSetClassPeriod h ps s
  | .setLinkTiming h ps => Sys2Proof.Machine.execSetLinkTiming h ps s
  | .linkStart h ps => Sys2Proof.Machine.execLinkStart h ps s
  | .linkStop h ps => Sys2Proof.Machine.execLinkStop h ps s
  | .pinNode h ps => Sys2Proof.Machine.execPinNode h ps s
  | .unpinNode h ps => Sys2Proof.Machine.execUnpinNode h ps s
  | .controlWriteDataByte h b => Sys2Proof.Machine.execControlWriteDataByte h b s
  | .controlReadByte h => Sys2Proof.Machine.execControlReadByte h s

end Sys2Proof.Machine
end

