-- ==== Sys2Proof/Safety.lean ====
section
/-!
DEFINITION. What the part keeps true of its own records from one step to the next: the limits and laws that the manual states
of the whole part, as invariants that a step is held to.
-/

namespace Sys2Proof.Machine

/-- R160: an event queue holds at most 16 records; an OVERFLOW record is the newest, and only it can be the 16th. -/
abbrev EventQueueOk (q : List EventRecord) : Prop :=
  q.length ≤ 16 ∧ (∀ r ∈ q.dropLast, r.kind ≠ .overflow) ∧ (q.length = 16 → ∃ r ∈ q, r.kind = .overflow)

/-- R160 for every host. -/
abbrev State.eventsOk (s : State) : Prop := ∀ h : Host, EventQueueOk (s.hosts.get h).events

/-- R64, R67: a claim record has at most two waiters, none twice and none the holder, none while there is no holder, and
no lease of length 0. -/
abbrev ClaimRecordOk (c : ClaimRecord) : Prop :=
  c.waiters.length ≤ 2 ∧ (c.waiters.map Waiter.host).Nodup ∧ (c.holder = none → c.waiters = [])
    ∧ (∀ k ∈ c.holder, k.lease ≠ 0 ∧ ∀ w ∈ c.waiters, w.host ≠ k.host) ∧ ∀ w ∈ c.waiters, w.lease ≠ 0

/-- R64 for every node. -/
abbrev State.claimsOk (s : State) : Prop := ∀ n : Node, ClaimRecordOk (s.claims.get n)

/-- R30: each class has one of the ten periods. -/
abbrev State.periodsOk (s : State) : Prop := ∀ c : Fin 4, periodLegal (s.periods.get c) = true

/-- R30, R41: the periods are legal, and a VALID entry has reached its stale limit only while the stale check of the present
millisecond event is still to be taken. -/
abbrev State.freshOk (s : State) : Prop :=
  s.periodsOk ∧ ∀ i : SlotIx, ∀ e ∈ s.entry i, s.pastLimit e = true → s.due.stale = true

/-- R46: a write queue holds at most 16 records, at most 6 of one host. -/
abbrev State.writeQueuesOk (s : State) : Prop :=
  ∀ l : Link, (s.writeQueues.get l).count ≤ 16 ∧ ∀ h : Host, (s.writeQueues.get l).countOf h ≤ 6

/-- R49 to R51, R53, R54, R112: a record is RESERVED just until it is taken, and only then may have a lapse reason; a node has
at most one WRITE request in flight, at most one OUTSTANDING record, and the one just when it has the other. -/
abbrev State.outstandingOk (s : State) : Prop :=
  ∀ l : Link, (∀ x ∈ (s.writeQueues.get l).reserved, x.state = .reserved)
    ∧ (∀ x ∈ (s.writeQueues.get l).order, x.state ≠ .reserved ∧ x.lapse = none)
    ∧ ∀ n : Node,
      ((s.writeQueues.get l).order.filter fun x => decide (x.node = n ∧ x.state = .outstanding)).length
          = ((List.finRange 8).filter fun t => (s.request l t).any fun r => r.isWrite && decide (r.node = n)).length
        ∧ ((List.finRange 8).filter fun t => (s.request l t).any fun r => r.isWrite && decide (r.node = n)).length ≤ 1

/-- R134, R135, R136: an alias slot's address and window are in range, and its address is neither the control address nor
that of another slot of the host. -/
abbrev State.aliasesOk (s : State) : Prop :=
  ∀ (h : Host) (k : AliasIx), ∀ w ∈ (s.hosts.get h).aliases.get k,
    w.address ≠ s.controlAddress ∧ 0x08 ≤ w.address.toNat ∧ w.address.toNat ≤ 0x77
      ∧ 1 ≤ w.size ∧ w.size ≤ 256 ∧ w.base.toNat + w.size - 1 ≤ 65535
      ∧ ∀ j : AliasIx, j ≠ k → ∀ x ∈ (s.hosts.get h).aliases.get j, x.address ≠ w.address

/-- R2, R5, R11: an entry has 1 to 8 registers that do not pass 65535 and at least one holder, and no two entries of one
node share a register. -/
abbrev State.mirrorOk (s : State) : Prop :=
  ∀ i : SlotIx, ∀ e ∈ s.entry i,
    1 ≤ e.length ∧ e.length ≤ 8 ∧ e.first.toNat + e.length - 1 ≤ 65535 ∧ 1 ≤ e.holderCount
      ∧ ∀ j : SlotIx, j ≠ i → ∀ x ∈ s.entry j, x.node = e.node →
          rangesShare x.first.toNat x.length e.first.toNat e.length = false

/-- R78, R84, R90, R92: an ident cause is present just while IDENTIFYING; the timeouts of a node stay below 3 and are 0
while it is not PRESENT; a max length is 1 to 8; a PRESENT node has an identity that its pin, if any, accepts. -/
abbrev NodeRecordOk (r : NodeRecord) : Prop :=
  (r.cause.isSome ↔ r.presence = .identifying) ∧ r.timeouts ≤ 2 ∧ (r.presence ≠ .present → r.timeouts = 0)
    ∧ (∀ i ∈ r.identity, 1 ≤ i.maxLength ∧ i.maxLength ≤ 8)
    ∧ (r.presence = .present → ∃ i ∈ r.identity, pinAccepts r.pin i.vendor i.model = true)

/-- R78, R91: the nodes of a link that is neither ENUMERATING nor UP are UNKNOWN. -/
abbrev State.quietNodesOk (s : State) : Prop :=
  ∀ n : Node, s.linkState (nodeLink n) = .enumerating ∨ s.linkState (nodeLink n) = .up ∨ s.presence n = .unknown

/-- R78 for every node, with the nodes of links out of service UNKNOWN. -/
abbrev State.nodesOk (s : State) : Prop := s.quietNodesOk ∧ ∀ n : Node, NodeRecordOk (s.nodes.get n)

/-- R96, R98, R101, R102, R106, R107: a running link has fewer than 8 bad frames in a row; a SYNC run is below 4 in TRAINING;
the deadline is present just in TRAINING, the hold-off end only in DOWN; the settings are in range; a link out of service has
received nothing. -/
abbrev LinkRecordOk (k : LinkRecord) : Prop :=
  k.consecutiveBad ≤ 8 ∧ (k.state.running = true → k.consecutiveBad ≤ 7)
    ∧ k.syncRun ≤ 4 ∧ (k.state = .training → k.syncRun ≤ 3)
    ∧ (k.deadline.isSome ↔ k.state = .training) ∧ (k.holdOff.isSome → k.state = .down)
    ∧ k.timeout ≠ 0 ∧ k.retryLimit ≤ 7 ∧ (k.state.running = false → k.received = [])

/-- R96 for both links. -/
abbrev State.linksOk (s : State) : Prop := ∀ l : Link, LinkRecordOk (s.links.get l)

/-- R79: READ and WRITE requests are in flight to PRESENT nodes only, and IDENT requests to IDENTIFYING nodes only. -/
abbrev State.requestsOk (s : State) : Prop :=
  ∀ (l : Link) (t : Tag), ∀ r ∈ s.request l t,
    nodeLink r.node = l ∧ s.presence r.node = (if r.isIdent then .identifying else .present)

/-- R82, R115: pending IDENTs are of IDENTIFYING nodes, and a node has at most one IDENT pending or in flight. -/
abbrev State.identsOk (s : State) : Prop :=
  (∀ l : Link, (s.arbiters.get l).idents.Nodup
      ∧ ∀ n ∈ (s.arbiters.get l).idents, nodeLink n = l ∧ s.presence n = .identifying)
    ∧ ∀ (l : Link) (t : Tag), ∀ r ∈ s.request l t, r.isIdent = true →
        r.node ∉ (s.arbiters.get l).idents
          ∧ ∀ u : Tag, u ≠ t → ∀ x ∈ s.request l u, x.isIdent = true → x.node ≠ r.node

/-- R115: a pending fetch concerns a PRESENT node. -/
abbrev State.fetchesOk (s : State) : Prop :=
  ∀ l : Link, ∀ f ∈ (s.arbiters.get l).fetches, nodeLink f.node = l ∧ s.presence f.node = .present

/-- R12, R25, R37: the entries of a node that is not PRESENT are SUSPENDED, and no queued poll is of a SUSPENDED entry. -/
abbrev State.entriesOk (s : State) : Prop :=
  (∀ i : SlotIx, ∀ e ∈ s.entry i, e.state ≠ .suspended → s.presence e.node = .present)
    ∧ ∀ l : Link, ∀ item ∈ s.pollQueues.get l, ∃ e ∈ s.entry item.slot, nodeLink e.node = l ∧ e.state ≠ .suspended

/-- The slot and the generation that a poll in flight carries (R4, R112). -/
def Request.polled (r : Request) : Option (SlotIx × Byte) :=
  match r.kind with
  | .poll i generation _ => some (i, generation)
  | .fetch _ _ _ => none
  | .write => none
  | .ident => none

/-- R4: a request is a poll that carries slot `i` with the generation the slot now has. -/
def State.pollsFor (s : State) (i : SlotIx) (r : Request) : Bool := decide (r.polled = some (i, (s.slots.get i).generation))

/-- R8, R14, R24, R25, R35, R37: an item of a poll queue has the present generation of its slot; a QUEUED entry has an item in
its link's poll queue; an IN_FLIGHT entry has a poll of its whole range in flight; a repoll mark is set only while the entry is
IN_FLIGHT and not SUSPENDED. -/
abbrev State.pollsOk (s : State) : Prop :=
  (∀ l : Link, ∀ item ∈ s.pollQueues.get l, item.generation = (s.slots.get item.slot).generation)
    ∧ ∀ i : SlotIx, ∀ e ∈ s.entry i,
      (e.phase = .queued → ∃ item ∈ s.pollQueues.get (nodeLink e.node), item.slot = i)
      ∧ (e.phase = .inFlight → ∃ t : Tag, ∃ r ∈ s.request (nodeLink e.node) t,
          s.pollsFor i r = true ∧ r.node = e.node ∧ r.address = e.first ∧ r.length = e.length)
      ∧ (e.repoll = true → e.phase = .inFlight ∧ e.state ≠ .suspended)

/-- R8, R35: each slot has one item in the poll queues just while its entry is QUEUED, and one poll with the slot's generation
in flight just while its entry is IN_FLIGHT. -/
abbrev State.pollsCounted (s : State) : Prop :=
  ∀ i : SlotIx,
    ((s.pollQueues.get 0 ++ s.pollQueues.get 1).filter fun item => decide (item.slot = i)).length
        = (if (s.entry i).any fun e => decide (e.phase = .queued) then 1 else 0)
      ∧ ((List.finRange 2).map fun l => ((List.finRange 8).filter fun t => (s.request l t).any (s.pollsFor i)).length).sum
        = (if (s.entry i).any fun e => decide (e.phase = .inFlight) then 1 else 0)

/-- R4: from `s` to `t`, no slot's generation comes round to the one that a poll of an earlier entry of that slot still carries
in flight, as it can once "the slot has been freed a multiple of 256 times since that poll was queued". -/
abbrev State.noPollReached (s t : State) : Prop :=
  ∀ (l : Link) (g : Tag), ∀ r ∈ s.request l g, (t.request l g).map Request.kind = some r.kind →
    ∀ i : SlotIx, t.pollsFor i r = true → s.pollsFor i r = true

/-- A request in flight is a fetch of host `h`. -/
def Request.fetchOf (h : Host) (r : Request) : Bool :=
  match r.kind with
  | .fetch x _ _ => decide (x = h)
  | .poll _ _ _ => false
  | .write => false
  | .ident => false

/-- R127, R128, R130: each host has at most one fetch pending or in flight, on both links together, reported or not. -/
abbrev State.fetchLimitOk (s : State) : Prop :=
  ∀ h : Host, ((List.finRange 2).map fun l =>
    ((s.arbiters.get l).fetches.filter fun f => decide (f.host = h)).length
      + ((List.finRange 8).filter fun t => (s.request l t).any (Request.fetchOf h)).length).sum ≤ 1

/-- R61, R62, R63: a host has covered records just while its DRAIN is pending; they are taken and reported, and with those that
failed they are no more than the DRAIN covered. -/
abbrev State.drainsOk (s : State) : Prop :=
  (∀ l : Link, ∀ r ∈ (s.writeQueues.get l).reserved, r.covered = false)
  ∧ ∀ h : Host,
    let covered := ((s.writeQueues.get 0).order ++ (s.writeQueues.get 1).order).filter fun r =>
      decide (r.origin = h) && r.covered
    ((s.hosts.get h).drain.isSome ↔ covered ≠ [])
      ∧ (∀ r ∈ covered, r.reported = true)
      ∧ ∀ d ∈ (s.hosts.get h).drain, d.failed + covered.length ≤ d.covered

/-- R50, R53, R57: a QUEUED write has a PRESENT node, a HELD one an IDENTIFYING node, and a RESERVED record without a lapse
reason a PRESENT node. -/
abbrev State.writesOk (s : State) : Prop :=
  (∀ l : Link, ∀ r ∈ (s.writeQueues.get l).order, nodeLink r.node = l
      ∧ (r.state = .queued → s.presence r.node = .present) ∧ (r.state = .held → s.presence r.node = .identifying))
    ∧ ∀ l : Link, ∀ r ∈ (s.writeQueues.get l).reserved, nodeLink r.node = l
      ∧ (r.lapse = none → s.presence r.node = .present)

/-- R97: on a link that is neither ENUMERATING nor UP no copy waits for the transmitter, and no REQUEST is being sent. -/
abbrev State.quietLinesOk (s : State) : Prop :=
  ∀ l : Link, s.linkState l = .enumerating ∨ s.linkState l = .up
    ∨ ((s.arbiters.get l).txOrder = [] ∧ (s.arbiters.get l).onLine = none)

/-- R79 with what it rests on. -/
abbrev State.trafficOk (s : State) : Prop :=
  s.quietNodesOk ∧ s.requestsOk ∧ s.identsOk ∧ s.fetchesOk ∧ s.entriesOk ∧ s.writesOk ∧ s.quietLinesOk

end Sys2Proof.Machine
end

