-- ==== Sys2Proof/Certificates/Slice0/Obligations.lean ====
section
/-!
DEFINITION. The statements for the provers. An equation for the next state carries the frame: every field that the equation
does not name is as it was. `s.judged c h ps` is the state in which a host command is judged (R150). The fields `answer` of a port
and `sentFrame` of an arbiter are the model's own record of what the part showed (notes/assumptions/18).
-/

open Sys2Proof Sys2Proof.Machine

/-! ## What several statements speak of -/

/-- The ending of a taken write with the failure `why`, as host `h` sees it: WRITE_FAILED if the record is reported, and whether
the record is covered by the host's DRAIN (R56, R62); nothing where the record is another host's. -/
def Sys2Proof.Machine.WriteRecord.failing (h : Sys2Proof.Host) (why : Reason) (r : WriteRecord) :
    Option (Option EventBody × Bool) :=
  if r.origin = h then
    some (if r.reported then
        some { kind := .writeFailed, subject := nodeRef r.node, reason := why.code, value := r.seq.getD 0,
               detail := some (r.address, byteOf r.data.length) }
      else none, r.covered)
  else none

/-- An event that is no write's ending. -/
def Sys2Proof.Machine.plainly (k : EventKind) (subject reason : Byte) (value : Word16) : Option EventBody × Bool :=
  (some { kind := k, subject := subject, reason := reason, value := value, detail := none }, false)

/-- What host `h` sees of the endings that the arbiter of link `l` imposes on the requests in flight, in ascending tag, and then
on the pending fetches, oldest first, of the nodes `p`: a WRITE ends with `write`, a fetch with `fetch` (R123, R124, R129). -/
def Sys2Proof.Machine.State.imposed (s : State) (l : Link) (p : Node → Bool) (write fetch : Reason) (h : Sys2Proof.Host) :
    List (Option EventBody × Bool) :=
  let fetchDone := fun (g : Sys2Proof.Host) (ticket : Byte) (reported : Bool) (n : Node) =>
    if g = h ∧ reported = true then [plainly .fetchDone (nodeRef n) fetch.code (ticket.setWidth 16)] else []
  ((List.finRange 8).flatMap fun t => match s.request l t with
    | none => []
    | some r =>
      if p r.node then match r.kind with
        | .write => ((s.writeQueues.get l).order.filter fun x => x.node = r.node ∧ x.state = .outstanding).filterMap
            (WriteRecord.failing h write)
        | .fetch g ticket reported => fetchDone g ticket reported r.node
        | .poll _ _ _ | .ident => []
      else [])
    ++ ((s.arbiters.get l).fetches.filter fun f => p f.node).flatMap fun f => fetchDone f.host f.ticket f.reported f.node

/-- R129: the results that the endings of `imposed` put into the fetch buffer of host `h`, in the same order. -/
def Sys2Proof.Machine.State.imposedFetches (s : State) (l : Link) (p : Node → Bool) (fetch : Reason) (h : Sys2Proof.Host) :
    List FetchResult :=
  ((List.finRange 8).filterMap fun t => match s.request l t with
    | none => none
    | some r => match r.kind with
      | .fetch g ticket reported =>
        if p r.node = true ∧ g = h ∧ reported = true then
          some { ticket := ticket, status := fetch, node := r.node, address := r.address, length := r.length, data := [] }
        else none
      | .poll _ _ _ | .write | .ident => none)
    ++ ((s.arbiters.get l).fetches.filter fun f => p f.node && decide (f.host = h) && f.reported).map fun f =>
      { ticket := f.ticket, status := fetch, node := f.node, address := f.address, length := f.length, data := [] }

/-- A host's record after these endings and events, in this order, at the stamp `now` (R62, R160): each event arrives at its
queue, each covered write that failed is counted, and with the last of the `left` covered ones the DRAIN is done. -/
def Sys2Proof.Machine.HostState.handed (now : Word16) (left : Nat) (hs : HostState) :
    List (Option EventBody × Bool) → HostState
  | [] => hs
  | (told, drains) :: rest =>
    let hs := match told with
      | none => hs
      | some b => hs.receive now b
    if drains then
      let hs : HostState := { hs with drain := hs.drain.map fun d => { d with failed := d.failed + 1 } }
      let hs := match hs.drain with
        | none => hs
        | some d => if left = 1 then
            { hs.receive now (eventOf .drainDone 0 Reason.ok.code (word16 (byteOf d.covered) (byteOf d.failed))) with
              drain := none }
          else hs
      HostState.handed now (left - 1) hs rest
    else HostState.handed now left hs rest

/-- The record of host `h` after these endings and events, in this order. -/
def Sys2Proof.Machine.State.handed (s : State) (h : Sys2Proof.Host) (xs : List (Option EventBody × Bool)) : HostState :=
  let covered := ((s.writeQueues.get 0).order ++ (s.writeQueues.get 1).order).countP fun r => r.origin = h ∧ r.covered = true
  (s.hosts.get h).handed (low16 s.timeBase) covered xs

/-- R173: a frame as it stands on the line: start marker, header, body, CRC. -/
def Sys2Proof.Machine.onTheLine (kind : Byte) (body : List Byte) : List Byte :=
  let covered := kind :: byteOf body.length :: body
  0xA5 :: covered ++ [byteOf ((crc16 covered).toNat / 256), byteOf (crc16 covered).toNat]

/-- The frame rows of link `l` that bring `bytes`: BAD_FRAME any bytes, each other row the frame of its fields (R173; the
model's choice, notes/assumptions/11). -/
def Sys2Proof.Instr.bringsBytes (frame : Instr) (l : Link) (bytes : List Byte) : Prop :=
  frame = .badFrame { link := l, bytes := bytes }
  ∨ (frame = .syncFrame l ∧ bytes = onTheLine 0x01 [])
  ∨ (∃ tag round node status data, frame = .responseFrame l tag round node status data
      ∧ bytes = onTheLine 0x03 (byteOf (tag.val + 16 * round.toNat) :: node :: status :: data))
  ∨ (∃ node count address length, frame = .noticeFrame l node count address length
      ∧ bytes = onTheLine 0x04 [node, count, byteOf (address.toNat / 256), byteOf address.toNat, length])
  ∨ ∃ node, frame = .helloFrame l node ∧ bytes = onTheLine 0x05 [node]

/-- R98, R102, R108: link `l` in a running state after a bad frame with `beyond` received after it. (`departLink` is the
departure that `DepartureEndsLinkWork` states.) Every frame is line activity (notes/assumptions/14); outside TRAINING the SYNC
run is kept (notes/assumptions/26). -/
def Sys2Proof.Machine.State.afterBadFrame (s : State) (l : Link) (beyond : List Byte) : State :=
  let bad := s.modLink l fun k =>
    { k with badFrames := satInc k.badFrames, consecutiveBad := k.consecutiveBad + 1, activity := true, received := beyond,
             syncRun := if k.state = .training then 0 else k.syncRun }
  if (s.links.get l).consecutiveBad + 1 < 8 then bad else departLink l .down .errors bad

/-- R99, R101: link `l` after a good frame that TRAINING discards. -/
def Sys2Proof.Machine.State.afterDiscarded (s : State) (l : Link) (beyond : List Byte) : State :=
  s.modLink l fun k => { k with consecutiveBad := 0, activity := true, received := beyond, syncRun := 0 }

/-- R99, R103: link `l`, ENUMERATING or UP, after a good frame, before it is handed on. -/
def Sys2Proof.Machine.State.afterGoodFrame (s : State) (l : Link) (beyond : List Byte) : State :=
  s.modLink l fun k => { k with consecutiveBad := 0, activity := true, received := beyond }

/-! ## The whole part -/

/-- A step takes the command at the front of the queue; on an empty queue the part idles (the model's choice,
notes/assumptions/3). -/
def Obligations.StepTakesFrontCommand : Prop :=
  (∀ (c : Instr) (rest : List Instr) (s : State),
    step { s with pending := c :: rest } = exec c { s with pending := rest })
  ∧ ∀ s : State, s.pending = [] → step s = .next s

/-- R2, R30, R45, R47, R64, R78, R96, R111, R129, R131, R133, R138, R145, R148, R163, R167: what a reset leaves. Four clauses
are the model's choices: no line activity has been seen (notes/assumptions/19, UNSAFE), no byte has been received
(notes/assumptions/11), no frame is begun (notes/assumptions/16), and the command queue is kept (notes/assumptions/2). The
`State.reset` of the model is such a reset with the straps low and an empty command queue (notes/assumptions/2). -/
def Obligations.ResetGivesResetValues : Prop :=
  (∀ (a : Bool) (b : BitVec 2) (s : State), ∃ t, exec (.reset a b) s = .next t
    ∧ t.timeBase = 0 ∧ t.periods = #v[8, 32, 128, 1024] ∧ t.due = EventParts.noneDue
    ∧ (∀ i, t.slots.get i = { generation := 0, entry := none })
    ∧ (∀ l, t.pollQueues.get l = [] ∧ t.writeQueues.get l = { reserved := [], order := [] })
    ∧ (∀ n, t.claims.get n = { holder := none, waiters := [] }
        ∧ t.nodes.get n = { presence := .unknown, cause := none, identity := none, noticeCount := 0, pin := none,
                            timeouts := 0 })
    ∧ (∀ l, t.links.get l =
        -- the column "After reset" of R96; `activity` and `received` are the model's choices (notes/assumptions/11 and 19)
        { state := .off, lastReason := .none, stamp := 0, timeout := 20, retryLimit := 3, autoRestart := false,
          badFrames := 0, retries := 0, timeouts := 0, strays := 0, consecutiveBad := 0, syncRun := 0,
          deadline := none, holdOff := none, silence := 0, activity := false, received := [] })
    ∧ (∀ l, (∀ g, (t.arbiters.get l).tags.get g = { round := 0, request := none })
        ∧ (t.arbiters.get l).idents = [] ∧ (t.arbiters.get l).fetches = [] ∧ (t.arbiters.get l).nextClass = .write
        ∧ (t.arbiters.get l).txOrder = []
        -- the model's choice (notes/assumptions/16)
        ∧ (t.arbiters.get l).onLine = none)
    ∧ (∀ h, (∀ k, (t.hosts.get h).aliases.get k = none) ∧ (t.hosts.get h).pointer = 0
        ∧ (t.hosts.get h).report = { outcome := .none, slot := 0, first := 0, bytesRead := 0, fillBytes := 0,
                                     worst := none, oldest := 0, touched := 0 }
        ∧ (t.hosts.get h).fetchBuffer = none
        ∧ (t.hosts.get h).result = { number := 0, address := 0, status := .ok, values := [] }
        ∧ (t.hosts.get h).seqCounter = 0 ∧ (t.hosts.get h).ticketCounter = 0 ∧ (t.hosts.get h).drain = none
        ∧ (t.hosts.get h).events = [] ∧ (t.hosts.get h).eventCounter = 0 ∧ (t.hosts.get h).notifyEnable = false
        ∧ (t.hosts.get h).mask = 0 ∧ t.intAsserted h = false)
    ∧ t.controlAddress = (if a then 0x3C else 0x2C)
    ∧ (t.setupHost : Nat) = (if b = 1 then 1 else if b = 2 then 2 else 0)
    -- the model's choice (notes/assumptions/2)
    ∧ t.pending = s.pending)
  ∧ exec (.reset false 0) State.reset = .next State.reset

/-- Every invariant of Safety.lean holds right after a reset. -/
def Obligations.ResetMeetsInvariants : Prop :=
  ∀ (a : Bool) (b : BitVec 2) (n : Nat) (p : List Instr),
    let t := State.resetWith a b n p
    t.eventsOk ∧ t.claimsOk ∧ t.freshOk ∧ t.writeQueuesOk ∧ t.outstandingOk ∧ t.drainsOk ∧ t.aliasesOk ∧ t.mirrorOk ∧ t.pollsOk
      ∧ t.pollsCounted ∧ t.nodesOk ∧ t.linksOk ∧ t.trafficOk ∧ t.fetchLimitOk

/-- R160. -/
def Obligations.EventQueuesKept : Prop := ∀ s t : State, s.eventsOk → step s = .next t → t.eventsOk

/-- R64, R67, R68. -/
def Obligations.ClaimRecordsKept : Prop := ∀ s t : State, s.claimsOk → step s = .next t → t.claimsOk

/-- R30, R41 to R43. -/
def Obligations.FreshnessKept : Prop := ∀ s t : State, s.freshOk → step s = .next t → t.freshOk

/-- R46, R48; R49 to R51, R53: a record is RESERVED, and may have a lapse reason, just until it is taken, and a node has at most
one write outstanding; R61 to R63: a host has covered records left just while its DRAIN is pending. -/
def Obligations.WriteQueueLimitsKept : Prop :=
  (∀ s t : State, s.writeQueuesOk → step s = .next t → t.writeQueuesOk)
  ∧ (∀ s t : State, s.outstandingOk → step s = .next t → t.outstandingOk)
  ∧ ∀ s t : State, s.drainsOk → step s = .next t → t.drainsOk

/-- R134, R135, R136. -/
def Obligations.AliasSlotsKept : Prop := ∀ s t : State, s.aliasesOk → step s = .next t → t.aliasesOk

/-- R2, R5, R11; R8, R24, R35, R37: a QUEUED entry has its item in its link's poll queue, and an IN_FLIGHT one its poll in
flight. R8, R35: each slot has one item just while its entry is QUEUED, and one poll of its generation in flight just while it
is IN_FLIGHT, unless the slot has been freed so often that its generation comes round to that of a poll still in flight (R4). -/
def Obligations.MirrorTableKept : Prop :=
  (∀ s t : State, s.mirrorOk → step s = .next t → t.mirrorOk)
  ∧ (∀ s t : State, s.trafficOk → s.pollsOk → step s = .next t → t.pollsOk)
  ∧ ∀ s t : State, s.trafficOk → s.pollsOk → s.pollsCounted → step s = .next t → s.noPollReached t → t.pollsCounted

/-- R78, R90, R91, R92. -/
def Obligations.NodeRecordsKept : Prop := ∀ s t : State, s.nodesOk → step s = .next t → t.nodesOk

/-- R96, R98, R101, R102, R106, R107. -/
def Obligations.LinkRecordsKept : Prop := ∀ s t : State, s.linksOk → step s = .next t → t.linksOk

/-- R79, with R12, R25, R37, R50, R57, R82, R91, R97, R115; R127, R128, R130: a host has at most one fetch pending or in flight.
-/
def Obligations.TrafficFollowsPresence : Prop :=
  (∀ s t : State, s.trafficOk → step s = .next t → t.trafficOk)
  ∧ ∀ s t : State, s.fetchLimitOk → step s = .next t → t.fetchLimitOk

/-! ## The link request arbiters and the write order -/

/-- R113: granting goes on until no tag is free or no class is eligible: `grants` is what one grant (stated in
`GrantServesClassesInTurn`) leads to, repeated on link 0 and then on link 1, and any further grant changes nothing. -/
def Obligations.GrantingGoesOn : Prop :=
  (∀ s : State, grants s = Nat.repeat (grantOne 1) 8 (Nat.repeat (grantOne 0) 8 s))
  ∧ ∀ s : State, s.entriesOk →
    (∀ k, 8 ≤ k → grants s = Nat.repeat (grantOne 1) k (Nat.repeat (grantOne 0) k s))
    ∧ ∀ l : Link, grantOne l (grants s) = grants s
      ∧ (((grants s).arbiters.get l).lowestFree = none
          ∨ ((grants s).writeEligible l = false ∧ (grants s).readEligible l = false))

/-- R39, R54, R111 to R115: when a class is eligible, by the link's state and the sources that have something to send, and what
one grant does: the lowest free tag, its next round, the class that is served and its source, and nothing else. A poll records
its entry's write epoch at the grant (notes/assumptions/7, read from R39 and R115). -/
def Obligations.GrantServesClassesInTurn : Prop :=
  ∀ (l : Link) (s : State),
    (s.writeEligible l = true ↔ s.linkState l = .up ∧ ∃ r, (s.writeQueues.get l).offered = some r)
    ∧ (s.readEligible l = true ↔
        ((s.linkState l = .enumerating ∨ s.linkState l = .up) ∧ (s.arbiters.get l).idents ≠ [])
        ∨ (s.linkState l = .up ∧ ((s.arbiters.get l).fetches ≠ [] ∨ s.pollQueues.get l ≠ [])))
    ∧ ((s.linkState l = .off ∨ s.linkState l = .training ∨ s.linkState l = .down) → grantOne l s = s)
    ∧ (((s.arbiters.get l).lowestFree = none ∨ (s.writeEligible l = false ∧ s.readEligible l = false)) →
      grantOne l s = s)
    ∧ ∀ t : Tag, (s.arbiters.get l).lowestFree = some t →
      let made := fun (r : Request) (c : RequestClass) (a : Arbiter) =>
        { a with tags := upd a.tags t fun tr => { round := tr.round + 1, request := some r },
                 txOrder := a.txOrder ++ [t], nextClass := c }
      let fresh := fun (kind : RequestKind) (n : Node) (address : Word16) (length : Nat) =>
        ({ kind := kind, node := n, address := address, length := length, settings := none, retriesUsed := 0,
           frame := .toSend, sentOnce := false, timer := none } : Request)
      ((s.arbiters.get l).tags.get t).request = none
      ∧ (∀ u : Tag, u < t → ((s.arbiters.get l).tags.get u).request ≠ none)
      ∧ (∀ r older younger, s.linkState l = .up → (s.writeQueues.get l).offered = some r →
          (s.writeQueues.get l).order = older ++ r :: younger → r ∉ older →
          (s.readEligible l = true → (s.arbiters.get l).nextClass = .write) →
          grantOne l s =
            (s.modWrites l fun q => { q with order := older ++ { r with state := .outstanding } :: younger }).modArbiter l
              (made (fresh .write r.node r.address r.data.length) .read))
      ∧ (s.readEligible l = true → (s.writeEligible l = true → (s.arbiters.get l).nextClass = .read) →
          (∀ n rest, (s.arbiters.get l).idents = n :: rest →
            grantOne l s = s.modArbiter l fun a => made (fresh .ident n 0 8) .write { a with idents := rest })
          ∧ (∀ f rest, (s.arbiters.get l).idents = [] → (s.arbiters.get l).fetches = f :: rest →
            grantOne l s = s.modArbiter l fun a =>
              made (fresh (.fetch f.host f.ticket f.reported) f.node f.address f.length) .write { a with fetches := rest })
          ∧ (∀ item rest e, (s.arbiters.get l).idents = [] → (s.arbiters.get l).fetches = [] →
            s.pollQueues.get l = item :: rest → s.entry item.slot = some e →
            grantOne l s =
              ((s.modPolls l fun _ => rest).modEntry item.slot fun e => { e with phase := .inFlight }).modArbiter l
                (made (fresh (.poll item.slot item.generation e.epoch) e.node e.first e.length) .write)))

/-- R53: the offered write is the oldest QUEUED record whose node has no OUTSTANDING record; nothing is offered when there is
none. -/
def Obligations.OfferedWriteIsOldest : Prop :=
  ∀ (q : WriteQueue),
    let free := fun (r : WriteRecord) => r.state = .queued ∧ ∀ x ∈ q.order, x.node = r.node → x.state ≠ .outstanding
    (∀ r, q.offered = some r ↔ ∃ older younger, q.order = older ++ r :: younger ∧ free r ∧ ∀ x ∈ older, ¬ free x)
    ∧ (q.offered = none ↔ ∀ r ∈ q.order, ¬ free r)

/-! ## Taking a command -/

/-- The row of the table that gives a host command. -/
def Sys2Proof.Machine.Command.row : Command → Sys2Proof.Host → List Byte → Instr
  | .defineEntry => .defineEntry | .leaveEntry => .leaveEntry | .queryEntry => .queryEntry | .setWatch => .setWatch
  | .clearWatch => .clearWatch | .setNotify => .setNotify | .setAlias => .setAlias | .clearAlias => .clearAlias
  | .fetch => .fetch | .drain => .drain | .claim => .claim | .renew => .renew | .unclaim => .unclaim
  | .queryNode => .queryNode | .queryLink => .queryLink | .clearHost => .clearHost
  | .setClassPeriod => .setClassPeriod | .setLinkTiming => .setLinkTiming | .linkStart => .linkStart
  | .linkStop => .linkStop | .pinNode => .pinNode | .unpinNode => .unpinNode

/-- The rows that take what is open of the present millisecond event, in the order in which they are taken when nothing else has
taken them (the model's choice, notes/assumptions/1). -/
def Sys2Proof.Machine.openParts : List Instr :=
  [.staleLimitReached, .classTick, .leaseExpiry, .trainingDeadline 0, .holdOffEnd 0, .silenceDetected 0, .trainingDeadline 1,
   .holdOffEnd 1, .silenceDetected 1]

/-- These rows, taken one after another, lead from `s` to `t`. -/
def Sys2Proof.Machine.State.leadsTo : List Instr → State → State → Prop
  | [], s, t => t = s
  | c :: rows, s, t => ∃ u, exec c s = .next u ∧ State.leadsTo rows u t

/-- R32, R65, R132, R150: a command is judged with its own transaction closed, or the other one that was open ended by the rule
of its kind (`endTransaction`, stated in `AddressBytesDecoded`), and then with the open parts of the present millisecond event
taken, each as its row takes it; neither moves an alias pointer, nor does the command. A row with no data byte takes no command,
where no open control window write has data bytes (which would be taken at its end). That the open parts are taken at the latest
here, and their order, is the model's choice (notes/assumptions/1). What a command row stands for is read from R150
(notes/assumptions/4); that one that comes without its own control write leaves the pointer is the model's choice
(notes/assumptions/29). -/
def Obligations.CommandJudgedAfterMillisecond : Prop :=
  (∀ s : State, s.leadsTo openParts (settle s) ∧ (settle s).due = EventParts.noneDue)
  ∧ ∀ (c : Command) (h : Sys2Proof.Host) (ps : List Byte) (s : State),
    (s.transaction h = .controlWrite (some c.address) ps →
        s.judged c h ps = settle (s.modHost h fun hs => { hs with transaction := .idle }))
    ∧ (s.transaction h ≠ .controlWrite (some c.address) ps → s.judged c h ps = settle (endTransaction h s))
    ∧ (s.judged c h ps).due = EventParts.noneDue
    ∧ (s.judged c h ps).transaction h = .idle
    ∧ (s.due = EventParts.noneDue → s.transaction h = .controlWrite (some c.address) ps →
        s.judged c h ps = s.modHost h fun hs => { hs with transaction := .idle })
    ∧ (∀ g, ((s.judged c h ps).hosts.get g).pointer = (s.hosts.get g).pointer)
    ∧ (∃ t, exec (c.row h ps) s = .next t ∧ ∀ g, (t.hosts.get g).pointer = (s.hosts.get g).pointer)
    ∧ ((∀ p b bs, s.transaction h ≠ .controlWrite p (b :: bs)) →
        ∃ t, exec (c.row h []) s = .next t ∧ (t.hosts.get h).result = (s.hosts.get h).result)

/-- R151, R152, R153, R170: the command addresses, and what a result record becomes; a wrong byte count is refused with
BAD_PARAM before any other check, then a setup-host command of another host with NOT_PERMITTED; nothing but the result record
changes. -/
def Obligations.ByteCountAndPermissionChecked : Prop :=
  (allCommands.map Command.address = [0x80, 0x81, 0x82, 0x84, 0x85, 0x86, 0x88, 0x89, 0x8C, 0x8D, 0x90, 0x91, 0x92, 0x94, 0x95, 0x98,
      0xA0, 0xA1, 0xA2, 0xA3, 0xA4, 0xA5])
  ∧ (∀ (h : Sys2Proof.Host) (a : Byte) (st : Status) (values : List Byte) (s : State),
      s.withResult h a st values = s.modHost h fun hs =>
        { hs with result := { number := if hs.result.number = 255 then 1 else hs.result.number + 1, address := a, status := st,
                              values := values } })
  ∧ (allCommands.map Command.byteCount = [5, 1, 1, 9, 1, 3, 9, 1, 4, 1, 2, 2, 1, 2, 2, 1, 3, 4, 1, 1, 5, 1])
  ∧ (allCommands.filter Command.setupOnly = [.setClassPeriod, .setLinkTiming, .linkStart, .linkStop, .pinNode, .unpinNode])
  ∧ ∀ (c : Command) (h : Sys2Proof.Host) (ps : List Byte) (s : State), ps ≠ [] →
    (ps.length ≠ c.byteCount →
      exec (c.row h ps) s = .next ((s.judged c h ps).withResult h c.address .badParam []))
    ∧ (ps.length = c.byteCount → c.setupOnly = true → h ≠ s.setupHost →
      exec (c.row h ps) s = .next ((s.judged c h ps).withResult h c.address .notPermitted []))

/-! ## Mirror Table commands -/

/-- R11, R12: DEFINE_ENTRY of a range no entry of the node shares takes the lowest free slot; the node's presence and max length
choose the new entry's state. (R113: the arbiters then grant what has become eligible.) -/
def Obligations.DefineEntryCreates : Prop :=
  ∀ (h : Sys2Proof.Host) (nb a1 a0 len cb : Byte) (s : State) (n : Node) (c : RateClass) (i : SlotIx),
    let s0 := s.judged .defineEntry h [nb, a1, a0, len, cb]
    let first := word16 a1 a0
    nodeOfRef nb = some n → RateClass.ofByte cb = some c → rangeOk first len = true →
    (∀ j, ∀ e ∈ s0.entry j, e.node = n → rangesShare first.toNat len.toNat e.first.toNat e.length = false) →
    s0.entry i = none → (∀ j, j < i → s0.entry j ≠ none) →
    let entry := fun (st : EntryState) (phase : PollPhase) (fault : Reason) =>
      ({ node := n, first := first, data := List.replicate len.toNat none, state := st, age := 0, epoch := 0,
         phase := phase, repoll := false, fault := fault, skipped := 0,
         holders := upd (Vector.replicate 3 none) h fun _ => some { cls := c, watch := none } } : Entry)
    let made := fun (st : EntryState) (phase : PollPhase) (fault : Reason) =>
      s0.modSlot i fun sl => { sl with entry := some (entry st phase fault) }
    let answered := fun (t : State) =>
      Host.Outcome.next (ρ := Refusal) (φ := Fault)
        ((grants t).withResult h 0x80 .ok [byteOf i.val, (s0.slots.get i).generation])
    (s0.presence n ≠ .present → exec (.defineEntry h [nb, a1, a0, len, cb]) s = answered (made .suspended .idle .none))
    ∧ (s0.presence n = .present → s0.maxLength n < len.toNat →
        exec (.defineEntry h [nb, a1, a0, len, cb]) s =
          answered (notify h (eventOf .entryFailed (byteOf i.val) Reason.tooLong.code 0) (made .failed .idle .tooLong)))
    ∧ (s0.presence n = .present → len.toNat ≤ s0.maxLength n →
        exec (.defineEntry h [nb, a1, a0, len, cb]) s =
          answered ((made .unfilled .queued .none).modPolls (nodeLink n)
            (· ++ [{ slot := i, generation := (s0.slots.get i).generation }])))

/-- R10, R42: DEFINE_ENTRY of the very range of an entry replaces the host's class (UPDATED) or adds the host (JOINED); the
entry then meets its new stale limit, and nothing else of it changes. -/
def Obligations.DefineEntryJoinsOrUpdates : Prop :=
  ∀ (h : Sys2Proof.Host) (nb a1 a0 len cb : Byte) (s : State) (n : Node) (c : RateClass) (i : SlotIx) (e : Entry),
    let s0 := s.judged .defineEntry h [nb, a1, a0, len, cb]
    nodeOfRef nb = some n → RateClass.ofByte cb = some c → rangeOk (word16 a1 a0) len = true →
    s0.entry i = some e → e.node = n → e.first = word16 a1 a0 → e.length = len.toNat →
    (∀ j, j < i → ∀ x ∈ s0.entry j, ¬ (x.node = n ∧ x.first = word16 a1 a0 ∧ x.length = len.toNat)) →
    (∀ r, e.holders.get h = some r →
      exec (.defineEntry h [nb, a1, a0, len, cb]) s =
        .next ((meetLimit i (s0.modEntry i fun e =>
          { e with holders := upd e.holders h fun _ => some { r with cls := c } })).withResult h 0x80 .updated
            [byteOf i.val]))
    ∧ (e.holders.get h = none →
      exec (.defineEntry h [nb, a1, a0, len, cb]) s =
        .next ((meetLimit i (s0.modEntry i fun e =>
          { e with holders := upd e.holders h fun _ => some { cls := c, watch := none } })).withResult h 0x80 .joined
            [byteOf i.val]))

/-- R1, R9, R11: which node a reference byte names, the numbers of two bytes, and a node's max length; when DEFINE_ENTRY is
refused, and that a refusal changes no slot and no holder. -/
def Obligations.DefineEntryRefusals : Prop :=
  (∀ n : Node, (nodeLink n).val = n.val / 4 ∧ nodeAddress n = n.val % 4 + 1
      ∧ (nodeRef n).toNat = 16 * (nodeLink n).val + nodeAddress n ∧ ∀ b : Byte, nodeOfRef b = some n ↔ b = nodeRef n)
  ∧ (∀ (s : State) (n : Node) (i : Identity), (s.nodes.get n).identity = some i → s.maxLength n = i.maxLength)
  ∧ (∀ hi lo : Byte, (word16 hi lo).toNat = 256 * hi.toNat + lo.toNat)
  ∧ ∀ (h : Sys2Proof.Host) (nb a1 a0 len cb : Byte) (s : State),
    let s0 := s.judged .defineEntry h [nb, a1, a0, len, cb]
    let first := word16 a1 a0
    let refused := fun (why : Status) =>
      exec (.defineEntry h [nb, a1, a0, len, cb]) s = .next (s0.withResult h 0x80 why [])
    ((nodeOfRef nb = none ∨ len.toNat = 0 ∨ 8 < len.toNat ∨ 65535 < first.toNat + len.toNat - 1 ∨ 4 < cb.toNat) →
      refused .badParam)
    ∧ ∀ n c, nodeOfRef nb = some n → RateClass.ofByte cb = some c → rangeOk first len = true →
      (∀ j, ∀ e ∈ s0.entry j, ¬ (e.node = n ∧ e.first = first ∧ e.length = len.toNat)) →
      ((∃ j, ∃ e ∈ s0.entry j, e.node = n ∧ rangesShare first.toNat len.toNat e.first.toNat e.length = true) →
        refused .overlap)
      ∧ ((∀ j, ∀ e ∈ s0.entry j, e.node = n → rangesShare first.toNat len.toNat e.first.toNat e.length = false) →
        (∀ j, s0.entry j ≠ none) → refused .tableFull)

/-- R13, R14: LEAVE_ENTRY. -/
def Obligations.LeaveEntryRemovesHolder : Prop :=
  ∀ (h : Sys2Proof.Host) (ib : Byte) (s : State),
    let s0 := s.judged .leaveEntry h [ib]
    (48 ≤ ib.toNat → exec (.leaveEntry h [ib]) s = .next (s0.withResult h 0x81 .badParam []))
    ∧ ∀ i : SlotIx, ib.toNat = i.val →
      (s0.entry i = none → exec (.leaveEntry h [ib]) s = .next (s0.withResult h 0x81 .notFound []))
      ∧ ∀ e, s0.entry i = some e →
        (e.holders.get h = none → exec (.leaveEntry h [ib]) s = .next (s0.withResult h 0x81 .notHolder []))
        ∧ (e.holders.get h ≠ none → (∀ g, g ≠ h → e.holders.get g = none) →
            exec (.leaveEntry h [ib]) s =
              .next (((s0.modPolls (nodeLink e.node) fun q => q.filter fun item => item.slot ≠ i).modSlot i fun sl =>
                { generation := sl.generation + 1, entry := none }).withResult h 0x81 .ok [0]))
        ∧ (e.holders.get h ≠ none → (∃ g, g ≠ h ∧ e.holders.get g ≠ none) →
            exec (.leaveEntry h [ib]) s =
              .next ((meetLimit i (s0.modEntry i fun e => { e with holders := upd e.holders h fun _ => none })).withResult h
                0x81 .ok [byteOf ((List.finRange 3).countP fun g => g ≠ h && (e.holders.get g).isSome)]))

/-- R15, R168, R172: QUERY_ENTRY's answer, byte by byte; it changes nothing but the result record. -/
def Obligations.QueryEntryAnswers : Prop :=
  ∀ (h : Sys2Proof.Host) (ib : Byte) (s : State),
    let s0 := s.judged .queryEntry h [ib]
    (48 ≤ ib.toNat → exec (.queryEntry h [ib]) s = .next (s0.withResult h 0x82 .badParam []))
    ∧ ∀ i : SlotIx, ib.toNat = i.val →
      (s0.entry i = none →
        exec (.queryEntry h [ib]) s = .next (s0.withResult h 0x82 .notFound [(s0.slots.get i).generation]))
      ∧ ∀ e, s0.entry i = some e →
        let cls := fun g : Sys2Proof.Host => match e.holders.get g with | none => 15 | some r => r.cls.code.toNat
        exec (.queryEntry h [ib]) s = .next (s0.withResult h 0x82 .ok
          [byteOf (e.state.code.toNat + 16 * (if e.hasData then 1 else 0) + 32 * e.phase.code.toNat),
           byteOf (cls 0 + 16 * cls 1), byteOf (cls 2 + 16 * (s0.effective e).code.toNat),
           byteOf (e.age.toNat / 256), byteOf e.age.toNat, byteOf (e.epoch.toNat / 256), byteOf e.epoch.toNat,
           e.skipped, e.fault.code, (s0.slots.get i).generation])

/-- R164 to R166: SET_WATCH sets the band, evaluates it at once against stored data, and answers the zone; CLEAR_WATCH removes
it. The checks come in the manual's order. -/
def Obligations.WatchCommands : Prop :=
  ∀ (h : Sys2Proof.Host) (ib l3 l2 l1 l0 h3 h2 h1 h0 : Byte) (s : State),
    let ps := [ib, l3, l2, l1, l0, h3, h2, h1, h0]
    let s0 := s.judged .setWatch h ps
    let u0 := s.judged .clearWatch h [ib]
    let low := word32 l3 l2 l1 l0
    let high := word32 h3 h2 h1 h0
    ((48 ≤ ib.toNat ∨ high < low) → exec (.setWatch h ps) s = .next (s0.withResult h 0x84 .badParam []))
    ∧ (48 ≤ ib.toNat → exec (.clearWatch h [ib]) s = .next (u0.withResult h 0x85 .badParam []))
    ∧ ∀ i : SlotIx, ib.toNat = i.val →
      (u0.entry i = none → exec (.clearWatch h [ib]) s = .next (u0.withResult h 0x85 .notFound []))
      ∧ (∀ e, u0.entry i = some e →
          (e.holders.get h = none → exec (.clearWatch h [ib]) s = .next (u0.withResult h 0x85 .notHolder []))
          ∧ ∀ r, e.holders.get h = some r →
            exec (.clearWatch h [ib]) s =
              .next ((u0.modEntry i fun e => { e with holders := upd e.holders h fun _ => some { r with watch := none } }
                ).withResult h 0x85 .ok [if r.watch.isSome then 1 else 0]))
      ∧ (low ≤ high →
        (s0.entry i = none → exec (.setWatch h ps) s = .next (s0.withResult h 0x84 .notFound []))
        ∧ ∀ e, s0.entry i = some e →
          (e.holders.get h = none → exec (.setWatch h ps) s = .next (s0.withResult h 0x84 .notHolder []))
          ∧ ∀ r, e.holders.get h = some r →
            (4 < e.length → exec (.setWatch h ps) s = .next (s0.withResult h 0x84 .badParam []))
            ∧ (e.length ≤ 4 →
              let watched := fun zone : Zone => ({ r with watch := some { low := low, high := high, zone := zone } } : Holder)
              let set := fun zone : Zone => s0.modEntry i fun e =>
                { e with holders := upd e.holders h fun _ => some (watched zone) }
              (e.hasData = false → exec (.setWatch h ps) s = .next ((set .unknown).withResult h 0x84 .ok [0]))
              ∧ (e.hasData = true →
                let x := numberOf (e.data.filterMap id)
                let told := fun zone : Zone =>
                  notify h (eventOf .watch (byteOf i.val) 0 (zone.code.setWidth 16)) (set zone)
                (x < low.toNat → exec (.setWatch h ps) s = .next ((told .below).withResult h 0x84 .ok [1]))
                ∧ (low.toNat ≤ x → x ≤ high.toNat →
                    exec (.setWatch h ps) s = .next ((set .inside).withResult h 0x84 .ok [2]))
                ∧ (high.toNat < x → exec (.setWatch h ps) s = .next ((told .above).withResult h 0x84 .ok [3])))))

/-! ## Port and Event Unit commands, FETCH and DRAIN -/

/-- R163: SET_NOTIFY, and the settings after reset. -/
def Obligations.SetNotifyReplacesSettings : Prop :=
  ∀ (h : Sys2Proof.Host) (en m1 m0 : Byte) (s : State),
    let s0 := s.judged .setNotify h [en, m1, m0]
    let old := s0.hosts.get h
    ((1 < en.toNat ∨ 0x07FF < (word16 m1 m0).toNat) →
      exec (.setNotify h [en, m1, m0]) s = .next (s0.withResult h 0x86 .badParam []))
    ∧ (en.toNat ≤ 1 → (word16 m1 m0).toNat ≤ 0x07FF →
      exec (.setNotify h [en, m1, m0]) s =
        .next ((s0.modHost h fun hs => { hs with notifyEnable := decide (en = 1), mask := word16 m1 m0 }).withResult h 0x86
          .ok [if old.notifyEnable then 1 else 0, byteOf (old.mask.toNat / 256), byteOf old.mask.toNat]))
    ∧ ((State.reset.hosts.get h).notifyEnable = false ∧ (State.reset.hosts.get h).mask = 0)

/-- R136, R137, R170: SET_ALIAS and CLEAR_ALIAS. -/
def Obligations.AliasCommands : Prop :=
  ∀ (h : Sys2Proof.Host) (kb ab nb b1 b0 z1 z0 xb tb : Byte) (s : State),
    let ps := [kb, ab, nb, b1, b0, z1, z0, xb, tb]
    let s0 := s.judged .setAlias h ps
    let u0 := s.judged .clearAlias h [kb]
    let base := word16 b1 b0
    let size := (word16 z1 z0).toNat
    ((8 ≤ kb.toNat ∨ ab.toNat < 0x08 ∨ 0x77 < ab.toNat ∨ nodeOfRef nb = none ∨ size = 0 ∨ 256 < size
        ∨ 65535 < base.toNat + size - 1 ∨ 1 < xb.toNat ∨ 1 < tb.toNat) →
      exec (.setAlias h ps) s = .next (s0.withResult h 0x88 .badParam []))
    ∧ (8 ≤ kb.toNat → exec (.clearAlias h [kb]) s = .next (u0.withResult h 0x89 .badParam []))
    ∧ ∀ k : AliasIx, kb.toNat = k.val →
      ((u0.hosts.get h).aliases.get k = none → exec (.clearAlias h [kb]) s = .next (u0.withResult h 0x89 .notFound []))
      ∧ ((u0.hosts.get h).aliases.get k ≠ none →
          exec (.clearAlias h [kb]) s =
            .next ((u0.modHost h fun hs => { hs with aliases := upd hs.aliases k fun _ => none }).withResult h 0x89 .ok
              [kb]))
      ∧ ∀ n, 0x08 ≤ ab.toNat → ab.toNat ≤ 0x77 → nodeOfRef nb = some n → 1 ≤ size → size ≤ 256 →
        base.toNat + size - 1 ≤ 65535 → xb.toNat ≤ 1 → tb.toNat ≤ 1 →
        let slot : AliasSlot := { address := ab.setWidth 7, node := n, base := base, size := size,
                                  access := if xb = 1 then .readWrite else .readOnly, strict := decide (tb = 1) }
        let taken := slot.address = s0.controlAddress
          ∨ ∃ j, j ≠ k ∧ ∃ w ∈ (s0.hosts.get h).aliases.get j, w.address = slot.address
        (taken → exec (.setAlias h ps) s = .next (s0.withResult h 0x88 .duplicateAlias []))
        ∧ (¬ taken → exec (.setAlias h ps) s =
            .next ((s0.modHost h fun hs => { hs with aliases := upd hs.aliases k fun _ => some slot }).withResult h 0x88
              .ok [kb]))

/-- R127: FETCH: its checks in their order, and what an accepted one leaves. (R113: the arbiters then grant.) -/
def Obligations.FetchChecksAndAcceptance : Prop :=
  ∀ (h : Sys2Proof.Host) (nb a1 a0 len : Byte) (s : State),
    let s0 := s.judged .fetch h [nb, a1, a0, len]
    let address := word16 a1 a0
    let refused := fun (why : Status) => exec (.fetch h [nb, a1, a0, len]) s = .next (s0.withResult h 0x8C why [])
    let open' := (∃ l t, ∃ r ∈ s0.request l t, ∃ ticket reported, r.kind = .fetch h ticket reported)
      ∨ ∃ l, ∃ f ∈ (s0.arbiters.get l).fetches, f.host = h
    ((nodeOfRef nb = none ∨ len.toNat = 0 ∨ 8 < len.toNat ∨ 65535 < address.toNat + len.toNat - 1) → refused .badParam)
    ∧ ∀ n, nodeOfRef nb = some n → rangeOk address len = true →
      (open' → refused .busy)
      ∧ (¬ open' → s0.linkState (nodeLink n) ≠ .up → refused .linkNotUp)
      ∧ (¬ open' → s0.linkState (nodeLink n) = .up → s0.presence n ≠ .present → refused .nodeNotPresent)
      ∧ (¬ open' → s0.linkState (nodeLink n) = .up → s0.presence n = .present → s0.maxLength n < len.toNat →
          refused .badParam)
      ∧ (¬ open' → s0.linkState (nodeLink n) = .up → s0.presence n = .present → len.toNat ≤ s0.maxLength n →
          let ticket : Byte := if (s0.hosts.get h).ticketCounter = 255 then 1 else (s0.hosts.get h).ticketCounter + 1
          let item : FetchItem :=
            { host := h, ticket := ticket, node := n, address := address, length := len.toNat, reported := true }
          exec (.fetch h [nb, a1, a0, len]) s =
            .next ((grants ((s0.modHost h fun hs => { hs with ticketCounter := ticket }).modArbiter (nodeLink n) fun a =>
              { a with fetches := a.fetches ++ [item] })).withResult h 0x8C .accepted [ticket]))

/-- R61: DRAIN: pending, nothing to cover, and covered records marked. -/
def Obligations.DrainCoversOwnWrites : Prop :=
  ∀ (h : Sys2Proof.Host) (b : Byte) (s : State),
    let s0 := s.judged .drain h [b]
    let hs := s0.hosts.get h
    let covers := fun (r : WriteRecord) =>
      decide (r.origin = h ∧ r.reported = true ∧ (r.state = .queued ∨ r.state = .outstanding ∨ r.state = .held))
    let n := (s0.writeQueues.get 0).order.countP covers + (s0.writeQueues.get 1).order.countP covers
    let counter := [byteOf (hs.seqCounter.toNat / 256), byteOf hs.seqCounter.toNat]
    let mark := fun (q : WriteQueue) =>
      { q with order := q.order.map fun r => if covers r then { r with covered := true } else r }
    (hs.drain ≠ none → exec (.drain h [b]) s = .next (s0.withResult h 0x8D .busy []))
    ∧ (hs.drain = none → n = 0 →
        exec (.drain h [b]) s =
          .next ((notify h (eventOf .drainDone 0 Reason.ok.code 0) s0).withResult h 0x8D .ok (counter ++ [0])))
    ∧ (hs.drain = none → n ≠ 0 →
        exec (.drain h [b]) s =
          .next ((((s0.modWrites 0 mark).modWrites 1 mark).modHost h fun hs =>
            { hs with drain := some { counter := hs.seqCounter, covered := n, failed := 0 } }).withResult h 0x8D .accepted
              (counter ++ [byteOf n])))

/-! ## Claim commands -/

/-- R65 to R67, R69: CLAIM and RENEW, for every place the host may have in the record. -/
def Obligations.ClaimAndRenew : Prop :=
  ∀ (h : Sys2Proof.Host) (nb lease : Byte) (s : State),
    let s0 := s.judged .claim h [nb, lease]
    let r0 := s.judged .renew h [nb, lease]
    let endBytes := fun (w : Word32) => [byteOf (w.toNat / 256), byteOf w.toNat]
    let starts := fun (t : State) (n : Node) => t.modClaim n fun c =>
      { c with holder := some { host := h, lease := lease, leaseEnd := t.timeBase + 10 * lease.setWidth 32 } }
    ((nodeOfRef nb = none ∨ lease = 0) →
      exec (.claim h [nb, lease]) s = .next (s0.withResult h 0x90 .badParam [])
      ∧ exec (.renew h [nb, lease]) s = .next (r0.withResult h 0x91 .badParam []))
    ∧ ∀ n, nodeOfRef nb = some n → lease ≠ 0 →
      ((s0.claims.get n).holder = none →
        exec (.claim h [nb, lease]) s =
          .next ((starts s0 n).withResult h 0x90 .granted (endBytes (s0.timeBase + 10 * lease.setWidth 32))))
      ∧ (∀ k, (s0.claims.get n).holder = some k → k.host = h →
          exec (.claim h [nb, lease]) s = .next (s0.withResult h 0x90 .alreadyHeld (endBytes k.leaseEnd)))
      ∧ (∀ k before w after, (s0.claims.get n).holder = some k → k.host ≠ h →
          (s0.claims.get n).waiters = before ++ w :: after → w.host = h → (∀ x ∈ before, x.host ≠ h) →
          exec (.claim h [nb, lease]) s =
            .next (s0.withResult h 0x90 .alreadyWaiting [byteOf (before.length + 1)]))
      ∧ (∀ k, (s0.claims.get n).holder = some k → k.host ≠ h → (∀ x ∈ (s0.claims.get n).waiters, x.host ≠ h) →
          exec (.claim h [nb, lease]) s =
            .next ((s0.modClaim n fun c => { c with waiters := c.waiters ++ [{ host := h, lease := lease }] }).withResult h
              0x90 .waiting [byteOf ((s0.claims.get n).waiters.length + 1)]))
      ∧ (∀ k, (r0.claims.get n).holder = some k → k.host = h →
          exec (.renew h [nb, lease]) s =
            .next ((starts r0 n).withResult h 0x91 .ok (endBytes (r0.timeBase + 10 * lease.setWidth 32))))
      ∧ ((∀ k, (r0.claims.get n).holder = some k → k.host ≠ h) →
          exec (.renew h [nb, lease]) s = .next (r0.withResult h 0x91 .notHolder []))

/-- R68, R70, R71: UNCLAIM releases (and grants the head waiter), withdraws, or is refused. -/
def Obligations.UnclaimReleasesOrWithdraws : Prop :=
  ∀ (h : Sys2Proof.Host) (nb : Byte) (s : State),
    let s0 := s.judged .unclaim h [nb]
    (nodeOfRef nb = none → exec (.unclaim h [nb]) s = .next (s0.withResult h 0x92 .badParam []))
    ∧ ∀ n, nodeOfRef nb = some n →
      (∀ k, (s0.claims.get n).holder = some k → k.host = h →
        ((s0.claims.get n).waiters = [] →
          exec (.unclaim h [nb]) s =
            .next ((s0.modClaim n fun c => { c with holder := none }).withResult h 0x92 .ok [1]))
        ∧ (∀ w rest, (s0.claims.get n).waiters = w :: rest →
          let leaseEnd := s0.timeBase + 10 * w.lease.setWidth 32
          exec (.unclaim h [nb]) s =
            .next ((notify w.host (eventOf .claimGranted (nodeRef n) Reason.granted.code (low16 leaseEnd))
              (s0.modClaim n fun _ =>
                { holder := some { host := w.host, lease := w.lease, leaseEnd := leaseEnd }, waiters := rest })).withResult h
                  0x92 .ok [1])))
      ∧ ((∀ k, (s0.claims.get n).holder = some k → k.host ≠ h) →
        ((∃ w ∈ (s0.claims.get n).waiters, w.host = h) →
          exec (.unclaim h [nb]) s =
            .next ((s0.modClaim n fun c => { c with waiters := c.waiters.filter fun w => w.host ≠ h }).withResult h 0x92 .ok
              [2]))
        ∧ ((∀ w ∈ (s0.claims.get n).waiters, w.host ≠ h) →
          exec (.unclaim h [nb]) s = .next (s0.withResult h 0x92 .notHolder [])))

/-! ## Queries, host clearing, setup commands -/

/-- R77, R94, R109, R168, R172: QUERY_NODE and QUERY_LINK answer their pages and change nothing but the result record. That a
waiter nibble reads 0xF where no waiter stands is the model's reading (notes/assumptions/30). -/
def Obligations.QueryNodeAndLinkAnswer : Prop :=
  ∀ (h : Sys2Proof.Host) (xb page : Byte) (s : State),
    let s0 := s.judged .queryNode h [xb, page]
    let u0 := s.judged .queryLink h [xb, page]
    let two := fun (w : Word16) => [byteOf (w.toNat / 256), byteOf w.toNat]
    ((nodeOfRef xb = none ∨ 1 < page.toNat) →
      exec (.queryNode h [xb, page]) s = .next (s0.withResult h 0x94 .badParam []))
    ∧ ((1 < xb.toNat ∨ 1 < page.toNat) →
      exec (.queryLink h [xb, page]) s = .next (u0.withResult h 0x95 .badParam []))
    ∧ (∀ n, nodeOfRef xb = some n →
      let r := s0.nodes.get n
      let c := s0.claims.get n
      let place := fun (i : Nat) => match c.waiters[i]? with | none => 15 | some w => w.host.val
      (page = 0 → exec (.queryNode h [xb, page]) s = .next (s0.withResult h 0x94 .ok
        (byteOf (r.presence.code.toNat + 16 * (identCauseCode r.cause).toNat) ::
          match r.identity with
          | none => [0, 0, 0, 0, 0, 0, 0, r.noticeCount.setWidth 8, byteOf r.timeouts]
          | some i => [if i.sendsNotices then 3 else 1] ++ two i.vendor ++ two i.model
              ++ [i.revision, byteOf i.maxLength, r.noticeCount.setWidth 8, byteOf r.timeouts])))
      ∧ (page = 1 → exec (.queryNode h [xb, page]) s = .next (s0.withResult h 0x94 .ok
        ((match r.pin with | none => [0, 0, 0, 0, 0] | some p => [1] ++ two p.vendor ++ two p.model)
          ++ (match c.holder with
              | none => [0xFF, 0, 0, 0]
              | some k => [byteOf k.host.val, k.lease] ++ two (low16 k.leaseEnd))
          ++ [byteOf (place 0 + 16 * place 1)]))))
    ∧ (∀ l : Link, xb.toNat = l.val →
      let k := u0.links.get l
      (page = 0 → exec (.queryLink h [xb, page]) s = .next (u0.withResult h 0x95 .ok
        ([k.state.code, k.lastReason.code] ++ two k.stamp ++ [k.timeout, byteOf k.retryLimit,
          if k.autoRestart then 1 else 0, byteOf k.consecutiveBad,
          byteOf ((List.finRange 8).countP fun n => nodeLink n = l ∧ u0.presence n = .present),
          byteOf ((List.finRange 8).countP fun t => (u0.request l t).isSome)])))
      ∧ (page = 1 → exec (.queryLink h [xb, page]) s = .next (u0.withResult h 0x95 .ok
        (two k.badFrames ++ two k.retries ++ two k.timeouts ++ two k.strays))))

/-- R28, R63, R76, R130, R149, R156, R157, R167: host clearing: each entry, poll item, write, claim record, request and pending
fetch after it, the cleared host's record with its three counts, and the other hosts' records, which change only by the events
handed to them: ENTRY_STALE of entries whose class is derived afresh, then CLAIM_GRANTED to head waiters. -/
def Obligations.ClearHostClearsOwnShare : Prop :=
  ∀ (h : Sys2Proof.Host) (b : Byte) (s : State),
    let s0 := s.judged .clearHost h [b]
    let without := fun (e : Entry) => { e with holders := upd e.holders h fun _ => none }
    let others := fun (e : Entry) => (List.finRange 3).any fun g => decide (g ≠ h) && (e.holders.get g).isSome
    let leaseEnd := fun (w : Waiter) => s0.timeBase + 10 * w.lease.setWidth 32
    let stale := fun (g : Sys2Proof.Host) => (List.finRange 48).flatMap fun i => match s0.entry i with
      | none => []
      | some e =>
        if (e.holders.get h).isSome && s0.pastLimit (without e) && (e.holders.get g).isSome then
          [plainly .entryStale (byteOf i.val) 0 0]
        else []
    let granted := fun (g : Sys2Proof.Host) => (List.finRange 8).flatMap fun n =>
      match (s0.claims.get n).holder, (s0.claims.get n).waiters with
      | some k, w :: _ =>
        if k.host = h ∧ w.host = g then [plainly .claimGranted (nodeRef n) Reason.granted.code (low16 (leaseEnd w))] else []
      | _, _ => []
    s0.claimsOk →
    ∃ t, exec (.clearHost h [b]) s = .next t
      ∧ (∀ i e, s0.entry i = some e →
          (others e = true → t.slots.get i = { s0.slots.get i with
            entry := some (if e.holders.get h = none then e
              else { without e with state := if s0.pastLimit (without e) then .stale else e.state }) })
          ∧ (e.holders.get h ≠ none → others e = false →
            t.slots.get i = { generation := (s0.slots.get i).generation + 1, entry := none }))
      ∧ (∀ i, s0.entry i = none → t.slots.get i = s0.slots.get i)
      ∧ (∀ l, t.pollQueues.get l = (s0.pollQueues.get l).filter fun item => ¬ (s0.entry item.slot).any fun e =>
          decide (nodeLink e.node = l) && (e.holders.get h).isSome && !others e)
      ∧ (∀ l, t.writeQueues.get l = { s0.writeQueues.get l with
          order := ((s0.writeQueues.get l).order.filter fun r =>
              r.origin ≠ h ∨ (r.state ≠ .queued ∧ r.state ≠ .held)).map fun r =>
            if r.origin = h then { r with reported := false, covered := false } else r })
      ∧ (∀ n, t.claims.get n =
          let c := s0.claims.get n
          if c.holder.any fun k => decide (k.host = h) then
            match c.waiters with
            | [] => { holder := none, waiters := [] }
            | w :: rest => { holder := some { host := w.host, lease := w.lease, leaseEnd := leaseEnd w }, waiters := rest }
          else { c with waiters := c.waiters.filter fun w => w.host ≠ h })
      ∧ (∀ l, t.arbiters.get l = { s0.arbiters.get l with
            tags := (t.arbiters.get l).tags, fetches := (s0.arbiters.get l).fetches.filter fun f => f.host ≠ h }
          ∧ ∀ g, (t.arbiters.get l).tags.get g = { (s0.arbiters.get l).tags.get g with
            request := (s0.request l g).map fun r => match r.kind with
              | .fetch x ticket _ => if x = h then { r with kind := .fetch x ticket false } else r
              | .poll _ _ _ | .write | .ident => r })
      ∧ (t.hosts.get h =
          { s0.hosts.get h with
            aliases := Vector.replicate 8 none, report := ReadReport.empty, fetchBuffer := none, drain := none, events := [],
            notifyEnable := false, mask := 0, countedApart := (t.hosts.get h).countedApart, result := (t.hosts.get h).result })
      ∧ ((t.hosts.get h).result =
          { number := incSkipZero (s0.hosts.get h).result.number, address := 0x98, status := .ok,
            values :=
              [byteOf ((List.finRange 48).countP fun i => (s0.entry i).any fun e => (e.holders.get h).isSome),
               byteOf (((s0.writeQueues.get 0).order ++ (s0.writeQueues.get 1).order).countP fun r =>
                 r.origin = h ∧ (r.state = .queued ∨ r.state = .held)),
               byteOf ((List.finRange 8).countP fun n => (s0.claims.get n).holder.any (fun k => k.host = h)
                 || (s0.claims.get n).waiters.any fun w => w.host = h)] })
      ∧ (∀ g, g ≠ h → t.hosts.get g = s0.handed g (stale g ++ granted g))
      ∧ t.timeBase = s0.timeBase ∧ t.periods = s0.periods ∧ t.nodes = s0.nodes ∧ t.links = s0.links

/-- R30, R31, R43, R153: SET_CLASS_PERIOD by the setup host. (`checkLimits` is the check of every entry that
`StaleCheckJudgesEveryEntry` states.) -/
def Obligations.SetClassPeriodReplacesPeriod : Prop :=
  ∀ (h : Sys2Proof.Host) (cb p1 p0 : Byte) (s : State), h = s.setupHost →
    let s0 := s.judged .setClassPeriod h [cb, p1, p0]
    let period := word16 p1 p0
    let legal := ∃ k : Nat, 1 ≤ k ∧ k ≤ 10 ∧ period.toNat = 2 ^ k
    ((3 < cb.toNat ∨ ¬ legal) →
      exec (.setClassPeriod h [cb, p1, p0]) s = .next (s0.withResult h 0xA0 .badParam []))
    ∧ ∀ c : Fin 4, cb.toNat = c.val → legal →
      let old := s0.periods.get c
      let was := [byteOf (old.toNat / 256), byteOf old.toNat]
      (period = old → exec (.setClassPeriod h [cb, p1, p0]) s = .next (s0.withResult h 0xA0 .ok was))
      ∧ (period ≠ old → exec (.setClassPeriod h [cb, p1, p0]) s =
          .next ((checkLimits { s0 with periods := upd s0.periods c fun _ => period }).withResult h 0xA0 .ok was))

/-- R100, R107, R114: SET_LINK_TIMING and LINK_START by the setup host. -/
def Obligations.LinkSettingsAndStart : Prop :=
  ∀ (h : Sys2Proof.Host) (lb tb rb ab : Byte) (s : State), h = s.setupHost →
    let s0 := s.judged .setLinkTiming h [lb, tb, rb, ab]
    let u0 := s.judged .linkStart h [lb]
    ((1 < lb.toNat ∨ tb = 0 ∨ 7 < rb.toNat ∨ 1 < ab.toNat) →
      exec (.setLinkTiming h [lb, tb, rb, ab]) s = .next (s0.withResult h 0xA1 .badParam []))
    ∧ (1 < lb.toNat → exec (.linkStart h [lb]) s = .next (u0.withResult h 0xA2 .badParam []))
    ∧ ∀ l : Link, lb.toNat = l.val →
      (tb ≠ 0 → rb.toNat ≤ 7 → ab.toNat ≤ 1 →
        exec (.setLinkTiming h [lb, tb, rb, ab]) s =
          .next ((s0.modLink l fun k =>
            { k with timeout := tb, retryLimit := rb.toNat, autoRestart := decide (ab = 1) }).withResult h 0xA1 .ok []))
      ∧ (u0.linkState l ≠ .off → u0.linkState l ≠ .down →
          exec (.linkStart h [lb]) s = .next (u0.withResult h 0xA2 .busy []))
      ∧ ((u0.linkState l = .off ∨ u0.linkState l = .down) →
          exec (.linkStart h [lb]) s =
            .next (((u0.modLink l fun k =>
              { k with state := .training, stamp := low16 u0.timeBase, badFrames := 0, retries := 0, timeouts := 0,
                       strays := 0, consecutiveBad := 0, syncRun := 0, deadline := some (u0.timeBase + 50),
                       holdOff := none }).modArbiter l fun a => { a with nextClass := .write }).withResult h 0xA2 .ok
                [(u0.linkState l).code]))

/-- R105: LINK_STOP in every link state. (`departLink` is the departure that `DepartureEndsLinkWork` states.) -/
def Obligations.LinkStopLeavesService : Prop :=
  ∀ (h : Sys2Proof.Host) (lb : Byte) (s : State), h = s.setupHost →
    let s0 := s.judged .linkStop h [lb]
    (1 < lb.toNat → exec (.linkStop h [lb]) s = .next (s0.withResult h 0xA3 .badParam []))
    ∧ ∀ l : Link, lb.toNat = l.val →
      (s0.linkState l = .off → exec (.linkStop h [lb]) s = .next (s0.withResult h 0xA3 .ok [0]))
      ∧ (s0.linkState l = .down → exec (.linkStop h [lb]) s =
          .next ((s0.modLink l fun k =>
            { k with state := .off, stamp := low16 s0.timeBase, holdOff := none }).withResult h 0xA3 .ok [4]))
      ∧ (s0.linkState l = .training ∨ s0.linkState l = .enumerating ∨ s0.linkState l = .up →
          exec (.linkStop h [lb]) s =
            .next ((departLink l .off .stopped s0).withResult h 0xA3 .ok [(s0.linkState l).code]))

/-- R7: the range of a write shares a register with the entry. -/
def Sys2Proof.Machine.WriteRecord.reaches (r : WriteRecord) (e : Entry) : Bool :=
  decide (r.node = e.node ∧ r.address.toNat < e.first.toNat + e.length ∧ e.first.toNat < r.address.toNat + r.data.length)

/-- R7, R8, R21, R23, R25, R38, R50, R60, R62, R91, R97, R104 to R106, R110, R124, R129: what a departure leaves on its link (of
an entry: SUSPENDED, IDLE, no repoll mark, its epoch raised by each failed write that reaches it, all else kept); what each host
is told, and what its fetch buffer then holds: LINK_DOWN with the reason and the state left, before the failures of the requests
in flight and of the queued writes, in either order of those two; and that the other link's arbiter, queues and nodes, the
claims and the time base are not touched. Each owner's endings come together (notes/assumptions/5), in the order of R104
(notes/assumptions/22). -/
def Obligations.DepartureEndsLinkWork : Prop :=
  ∀ (l : Link) (next : LinkState) (why : Reason) (s : State), s.trafficOk → s.outstandingOk → s.pollsOk →
    let t := departLink l next why s
    let fail := if why = .stopped then Reason.stopped else Reason.linkDown
    let down := if next = .down ∨ s.linkState l = .enumerating ∨ s.linkState l = .up then
      [plainly .linkDown (byteOf l.val) why.code ((s.linkState l).code.setWidth 16)] else []
    let inFlight := s.imposed l (fun _ => true) fail fail
    let fetched := s.imposedFetches l (fun _ => true) fail
    let queued := fun (h : Sys2Proof.Host) =>
      ((s.writeQueues.get l).order.filter fun r => r.state = .queued ∨ r.state = .held).filterMap (WriteRecord.failing h fail)
    t.links.get l = { s.links.get l with state := next, lastReason := why, stamp := low16 s.timeBase, deadline := none,
                                         holdOff := if next = .down then some (s.timeBase + 100) else none,
                                         received := [] }
    ∧ (∃ requestsFirst : Bool, ∀ h, t.hosts.get h =
        { s.handed h (down ++ if requestsFirst then inFlight h ++ queued h else queued h ++ inFlight h) with
          fetchBuffer := (fetched h).getLast?.or (s.hosts.get h).fetchBuffer })
    ∧ (∀ n, nodeLink n = l →
        t.nodes.get n = { s.nodes.get n with presence := .unknown, cause := none, timeouts := 0 })
    ∧ t.pollQueues.get l = []
    ∧ (∀ g, t.request l g = none ∧ ((t.arbiters.get l).tags.get g).round = ((s.arbiters.get l).tags.get g).round)
    ∧ (t.arbiters.get l).idents = [] ∧ (t.arbiters.get l).fetches = [] ∧ (t.arbiters.get l).txOrder = []
    ∧ (t.arbiters.get l).onLine = none ∧ (t.arbiters.get l).nextClass = (s.arbiters.get l).nextClass
    ∧ (t.writeQueues.get l).order = []
    ∧ ((t.writeQueues.get l).reserved =
        (s.writeQueues.get l).reserved.map fun r => if r.lapse = none then { r with lapse := some fail } else r)
    ∧ (∀ i, t.slots.get i = { s.slots.get i with
        entry := (s.entry i).map fun e =>
          if nodeLink e.node = l then
            { e with state := .suspended, phase := .idle, repoll := false,
                     epoch := e.epoch + BitVec.ofNat 16 ((s.writeQueues.get l).order.countP fun r => r.reaches e) }
          else e })
    ∧ (∀ m, m ≠ l → t.arbiters.get m = s.arbiters.get m ∧ t.writeQueues.get m = s.writeQueues.get m
        ∧ t.pollQueues.get m = s.pollQueues.get m ∧ t.links.get m = s.links.get m)
    ∧ (∀ n, nodeLink n ≠ l → t.nodes.get n = s.nodes.get n)
    ∧ t.claims = s.claims ∧ t.timeBase = s.timeBase ∧ t.periods = s.periods

/-- R7, R8, R21, R23, R25, R37, R50, R56, R57, R59, R62, R80, R97, R123, R129: what a node leaving PRESENT leaves of its
requests, their copies (a copy that was next to be sent may have begun: a free value, notes/assumptions/16), fetches, entries
(SUSPENDED, IDLE, no repoll mark, the epoch raised by each failed write that reaches it, all else kept), poll items and writes,
with which reason each host is told of each ending (a fetch in flight or pending ends with NODE_LOST where a WRITE ends with
QUARANTINED) and what its fetch buffer then holds, the requests in flight and the queued writes in either order, and that other
nodes' requests, entries, poll items and writes go on. Each owner's endings come together (notes/assumptions/5). -/
def Obligations.LeavingPresentEndsNodeWork : Prop :=
  ∀ (n : Node) (p : Presence) (cause : Option IdentCause) (why : Reason) (s : State),
    s.trafficOk → s.outstandingOk → s.pollsOk → s.presence n = .present →
    (why = .nodeRestarted ∨ why = .nodeLost ∨ why = .quarantined) →
    let t := leavePresent n p cause why s
    let l := nodeLink n
    let fetchWhy := if why = .quarantined then Reason.nodeLost else why
    let inFlight := s.imposed l (fun m => decide (m = n)) why fetchWhy
    let fetched := s.imposedFetches l (fun m => decide (m = n)) fetchWhy
    let queued := fun (h : Sys2Proof.Host) => if why = .nodeRestarted then [] else
      ((s.writeQueues.get l).order.filter fun r => r.node = n ∧ r.state = .queued).filterMap (WriteRecord.failing h why)
    t.nodes = (s.modNode n fun r => { r with presence := p, cause := cause, timeouts := 0 }).nodes
    ∧ (∃ requestsFirst : Bool, ∀ h, t.hosts.get h =
        { s.handed h (if requestsFirst then inFlight h ++ queued h else queued h ++ inFlight h) with
          fetchBuffer := (fetched h).getLast?.or (s.hosts.get h).fetchBuffer })
    ∧ (∀ m g, t.request m g = (s.request m g).bind fun r => if r.node = n then none else some r)
    ∧ (∀ m, (t.arbiters.get m).fetches = (s.arbiters.get m).fetches.filter fun f => f.node ≠ n)
    ∧ (∀ m, m ≠ l → t.arbiters.get m = s.arbiters.get m)
    ∧ (∃ line, t.arbiters.get l = { s.arbiters.get l with
          tags := (t.arbiters.get l).tags, fetches := (t.arbiters.get l).fetches, onLine := line
          txOrder := (s.arbiters.get l).txOrder.filter fun g => ¬ (s.request l g).any fun r => r.node = n }
        ∧ (∀ g, ((t.arbiters.get l).tags.get g).round = ((s.arbiters.get l).tags.get g).round)
        -- R97: only a copy that was next to be sent before the change may have begun
        ∧ (line = (s.arbiters.get l).onLine
          ∨ ∃ g r rest, (s.arbiters.get l).onLine = none ∧ (s.arbiters.get l).txOrder = g :: rest ∧ s.request l g = some r
            ∧ r.node = n ∧ line = some (s.copyBytes l g r)))
    ∧ (∀ i, t.slots.get i = { s.slots.get i with
        entry := (s.entry i).map fun e =>
          if e.node = n then
            { e with state := .suspended, phase := .idle, repoll := false,
                     epoch := e.epoch + BitVec.ofNat 16 ((s.writeQueues.get l).order.countP fun r =>
                       r.reaches e && decide (r.state = .outstanding ∨ (r.state = .queued ∧ why ≠ .nodeRestarted))) }
          else e })
    ∧ (t.pollQueues.get l = (s.pollQueues.get l).filter fun item => ¬ (s.entry item.slot).any fun e => e.node = n)
    ∧ ((t.writeQueues.get l).order = ((s.writeQueues.get l).order.filter fun r =>
          ¬ (r.node = n ∧ (r.state = .outstanding ∨ (r.state = .queued ∧ why ≠ .nodeRestarted)))).map fun r =>
        if r.node = n ∧ r.state = .queued then { r with state := .held } else r)
    ∧ ((t.writeQueues.get l).reserved = (s.writeQueues.get l).reserved.map fun r =>
        if r.node = n ∧ r.lapse = none then { r with lapse := some why } else r)
    ∧ (∀ m, m ≠ l → t.writeQueues.get m = s.writeQueues.get m ∧ t.pollQueues.get m = s.pollQueues.get m)
    ∧ t.claims = s.claims ∧ t.links = s.links ∧ t.timeBase = s.timeBase

/-- R82, R92, R93, R113: PIN_NODE and UNPIN_NODE by the setup host, for every presence of the node. That the arbiters grant,
after a quarantine has freed tags, when the whole change is complete is the model's reading (notes/assumptions/6).
NODE_QUARANTINED comes before the endings (notes/assumptions/23). -/
def Obligations.PinAndUnpinDecidePresence : Prop :=
  ∀ (h : Sys2Proof.Host) (nb v1 v0 m1 m0 : Byte) (s : State), h = s.setupHost →
    let ps := [nb, v1, v0, m1, m0]
    let s0 := s.judged .pinNode h ps
    let u0 := s.judged .unpinNode h [nb]
    let lifted := fun (n : Node) (t : State) =>
      (t.modNode n fun r => { r with presence := .identifying, cause := some .lift }).modArbiter (nodeLink n) fun a =>
        { a with idents := a.idents ++ [n] }
    (nodeOfRef nb = none →
      exec (.pinNode h ps) s = .next (s0.withResult h 0xA4 .badParam [])
      ∧ exec (.unpinNode h [nb]) s = .next (u0.withResult h 0xA5 .badParam []))
    ∧ ∀ n, nodeOfRef nb = some n →
      let s1 := s0.modNode n fun r => { r with pin := some { vendor := word16 v1 v0, model := word16 m1 m0 } }
      let u1 := u0.modNode n fun r => { r with pin := none }
      let agrees := ∃ i ∈ (s0.nodes.get n).identity, i.vendor = word16 v1 v0 ∧ i.model = word16 m1 m0
      let pinned := fun (t : State) (code : Byte) =>
        exec (.pinNode h ps) s = .next ((grants t).withResult h 0xA4 .ok [code])
      (s0.presence n = .present → agrees → pinned s1 2)
      ∧ (s0.presence n = .present → ¬ agrees →
          pinned (leavePresent n .quarantined none .quarantined
            (broadcast (eventOf .nodeQuarantined (nodeRef n) Reason.pin.code
              (((s0.nodes.get n).identity.map Identity.model).getD 0)) s1)) 4)
      ∧ (s0.presence n = .quarantined → agrees → pinned (lifted n s1) 1)
      ∧ (s0.presence n = .quarantined → ¬ agrees → pinned s1 4)
      ∧ (s0.presence n = .unknown → pinned s1 0) ∧ (s0.presence n = .absent → pinned s1 3)
      ∧ (s0.presence n = .identifying → pinned s1 1)
      ∧ (u0.presence n = .quarantined →
          exec (.unpinNode h [nb]) s = .next ((grants (lifted n u1)).withResult h 0xA5 .ok [1]))
      ∧ (u0.presence n ≠ .quarantined →
          exec (.unpinNode h [nb]) s = .next ((grants u1).withResult h 0xA5 .ok [(u0.presence n).code]))

/-! ## The millisecond event and what it brings -/

/-- R29, R40, R103: the count advances, every entry ages, silence is counted, and the parts of the event at the new count are
opened, after what was left open of the event before, taken by its rows (notes/assumptions/1). Nothing else changes. What line
activity is, is read from R98 and R99 (notes/assumptions/14). -/
def Obligations.MillisecondAdvancesCount : Prop :=
  ∀ s : State, ∃ t, exec .millisecondEvent s = .next t
    ∧ t.timeBase = s.timeBase + 1
    ∧ (∀ i, t.slots.get i = { (settle s).slots.get i with
        entry := ((settle s).entry i).map fun e =>
          { e with age := if e.age = 65535 then e.age else e.age + 1 } })
    ∧ (∀ l, t.links.get l =
        let k := (settle s).links.get l
        { k with activity := false,
                 silence := if k.state = .enumerating ∨ k.state = .up then (if k.activity then 0 else k.silence + 1)
                            else k.silence })
    ∧ t = { settle s with timeBase := t.timeBase, slots := t.slots, links := t.links, due := EventParts.allDue }
    ∧ s.leadsTo openParts (settle s)
    ∧ (s.due = EventParts.noneDue → settle s = s)

/-- R8, R32 to R34, R36: when a poll may be queued for an entry, and the ticks of the present millisecond event: every entry of
a ticking class that may be polled joins the tail of its link's poll queue in ascending slot index, or has its skipped ticks
counted; nothing else changes before the arbiters grant (R113). -/
def Obligations.ClassTickQueuesDueEntries : Prop :=
  (∀ e : Entry, e.pollable = true ↔ e.state ≠ .suspended ∧ ¬ (e.state = .failed ∧ e.fault = .tooLong))
  ∧ ∀ s : State,
    let due := fun (i : SlotIx) => (s.entry i).any fun e => e.pollable && match s.effective e with
      | .timed c => decide (s.timeBase.toNat % (s.periods.get c).toNat = 0)
      | .notice => false
    let joins := fun (i : SlotIx) => due i && (s.entry i).any fun e => decide (e.phase = .idle)
    (s.due.ticks = false → exec .classTick s = .next s)
    ∧ (s.due.ticks = true → ∃ t, exec .classTick s = .next (grants t)
        ∧ t = { s with due := { s.due with ticks := false }, slots := t.slots, pollQueues := t.pollQueues }
        ∧ (∀ i, t.slots.get i = { s.slots.get i with
            entry := (s.entry i).map fun e =>
              if due i then
                (if e.phase = .idle then { e with phase := .queued }
                 else { e with skipped := if e.skipped = 255 then e.skipped else e.skipped + 1 })
              else e })
        ∧ ∀ l, t.pollQueues.get l = s.pollQueues.get l ++
            ((List.finRange 48).filter fun i => joins i && (s.entry i).any fun e => decide (nodeLink e.node = l)).map
              fun i => { slot := i, generation := (s.slots.get i).generation })

/-- R6, R27, R41, R42: an entry's effective class, from its holders' requests, the periods and whether its node sends notices;
the stale check makes every VALID entry at or past its limit STALE and hands ENTRY_STALE to each of its holders, in ascending
slot index; `meetLimit` is that check of one slot; nothing else changes. -/
def Obligations.StaleCheckJudgesEveryEntry : Prop :=
  (∀ (s : State) (e : Entry),
    -- R6: the timed classes that take part, a NOTICE request as C3 where the node sends no notices or holds no identity
    let sends := ∃ i, (s.nodes.get e.node).identity = some i ∧ i.sendsNotices = true
    let asked := fun (c : Fin 4) => ∃ h r, e.holders.get h = some r ∧ (r.cls = .timed c ∨ (r.cls = .notice ∧ ¬ sends ∧ c = 3))
    (s.effective e = .notice ↔ ∀ c, ¬ asked c)
    ∧ (∀ c, s.effective e = .timed c ↔ asked c ∧ ∀ d, asked d → (s.periods.get c).toNat < (s.periods.get d).toNat
        ∨ (s.periods.get c = s.periods.get d ∧ c ≤ d))
    ∧ (s.pastLimit e = true ↔
        e.state = .valid ∧ ∃ c, s.effective e = .timed c ∧ 3 * (s.periods.get c).toNat ≤ e.age.toNat))
  ∧ (∀ s : State, ∃ t, checkLimits s = t
    ∧ t = { s with slots := t.slots, hosts := t.hosts }
    ∧ (∀ i, t.slots.get i = { s.slots.get i with
        entry := (s.entry i).map fun e => if s.pastLimit e then { e with state := .stale } else e })
    ∧ ∀ h, t.hosts.get h =
        ((List.finRange 48).filter fun i => (s.entry i).any fun e => s.pastLimit e && (e.holders.get h).isSome).foldl
          (fun hs i => hs.receive (low16 s.timeBase) (eventOf .entryStale (byteOf i.val) 0 0)) (s.hosts.get h))
  ∧ (∀ (s : State) (i : SlotIx),
    ((∀ e, s.entry i = some e → s.pastLimit e = false) → meetLimit i s = s)
    ∧ ∀ e, s.entry i = some e → s.pastLimit e = true → ∃ t, meetLimit i s = t
      ∧ t = { s with slots := t.slots, hosts := t.hosts }
      ∧ t.slots.get i = { s.slots.get i with entry := some { e with state := .stale } }
      ∧ (∀ j, j ≠ i → t.slots.get j = s.slots.get j)
      ∧ ∀ h, t.hosts.get h = if e.holders.get h = none then s.hosts.get h
          else (s.hosts.get h).receive (low16 s.timeBase) (eventOf .entryStale (byteOf i.val) 0 0))
  ∧ ∀ s : State,
      (s.due.stale = false → exec .staleLimitReached s = .next s)
      ∧ (s.due.stale = true →
          exec .staleLimitReached s = .next (checkLimits { s with due := { s.due with stale := false } }))

/-- R65, R68, R72: the lease check: every record whose lease end is the present count passes to its head waiter or becomes
free, in ascending node reference, with CLAIM_EXPIRED before CLAIM_GRANTED; nothing else changes. -/
def Obligations.LeaseExpiryPassesClaims : Prop :=
  ∀ s : State,
    let newEnd := fun (w : Waiter) => s.timeBase + 10 * w.lease.setWidth 32
    let told := fun (h : Sys2Proof.Host) (hs : HostState) (n : Node) =>
      match (s.claims.get n).holder with
      | none => hs
      | some k =>
        if k.leaseEnd = s.timeBase then
          let hs := if k.host = h then hs.receive (low16 s.timeBase)
              (eventOf .claimExpired (nodeRef n) Reason.ok.code (k.lease.setWidth 16)) else hs
          match (s.claims.get n).waiters with
          | [] => hs
          | w :: _ => if w.host = h then hs.receive (low16 s.timeBase)
              (eventOf .claimGranted (nodeRef n) Reason.granted.code (low16 (newEnd w))) else hs
        else hs
    (s.due.leases = false → exec .leaseExpiry s = .next s)
    ∧ (s.due.leases = true → ∃ t, exec .leaseExpiry s = .next t
        ∧ t = { s with due := { s.due with leases := false }, claims := t.claims, hosts := t.hosts }
        ∧ (∀ n, t.claims.get n =
            if (s.claims.get n).holder.any fun k => decide (k.leaseEnd = s.timeBase) then
              match (s.claims.get n).waiters with
              | [] => { holder := none, waiters := [] }
              | w :: rest => { holder := some { host := w.host, lease := w.lease, leaseEnd := newEnd w }, waiters := rest }
            else s.claims.get n)
        ∧ ∀ h, t.hosts.get h = (List.finRange 8).foldl (told h) (s.hosts.get h))

/-- R101, R103, R106: the training deadline, the silence and the hold-off end of a link at the present millisecond event. The
opening and taking of parts is the model's choice (notes/assumptions/1); a part whose moment is not at the present count is only
closed (notes/assumptions/10). -/
def Obligations.LinkTimersJudged : Prop :=
  ∀ (l : Link) (s : State),
    let d := { s with due := { s.due with deadline := upd s.due.deadline l fun _ => false } }
    let q := { s with due := { s.due with silence := upd s.due.silence l fun _ => false } }
    let o := { s with due := { s.due with holdOff := upd s.due.holdOff l fun _ => false } }
    let deadline := s.linkState l = .training ∧ (s.links.get l).deadline = some s.timeBase
    let silent := (s.linkState l = .enumerating ∨ s.linkState l = .up) ∧ 5 ≤ (s.links.get l).silence
    let ended := s.linkState l = .down ∧ (s.links.get l).holdOff = some s.timeBase
    (s.due.deadline.get l = false → exec (.trainingDeadline l) s = .next s)
    ∧ (s.due.deadline.get l = true → deadline → exec (.trainingDeadline l) s = .next (departLink l .down .noPartner d))
    ∧ (s.due.deadline.get l = true → ¬ deadline → exec (.trainingDeadline l) s = .next d)
    ∧ (s.due.silence.get l = false → exec (.silenceDetected l) s = .next s)
    ∧ (s.due.silence.get l = true → silent → exec (.silenceDetected l) s = .next (departLink l .down .silent q))
    ∧ (s.due.silence.get l = true → ¬ silent → exec (.silenceDetected l) s = .next q)
    ∧ (s.due.holdOff.get l = false → exec (.holdOffEnd l) s = .next s)
    ∧ (s.due.holdOff.get l = true → ¬ ended → exec (.holdOffEnd l) s = .next o)
    ∧ (s.due.holdOff.get l = true → ended → (s.links.get l).autoRestart = false →
        exec (.holdOffEnd l) s = .next (o.modLink l fun k => { k with holdOff := none }))
    ∧ (s.due.holdOff.get l = true → ended → (s.links.get l).autoRestart = true →
        exec (.holdOffEnd l) s = .next (o.modLink l fun k =>
          { k with state := .training, stamp := low16 s.timeBase, syncRun := 0, consecutiveBad := 0,
                   deadline := some (s.timeBase + 50), holdOff := none }))

/-! ## Sending, timers, frames -/

/-- R97, R107, R112, R116, R173: what the transmitter of a link sends next, and what FRAME_SENT does when that frame has been
sent whole: quiet in OFF and DOWN, SYNC frames alone in TRAINING; in ENUMERATING and UP the frame that was begun before its
request ended, else the oldest waiting copy, and SYNC frames while there is none; the first copy takes the link's settings, and
the timer starts. The model's choices: in OFF and DOWN the row changes nothing (notes/assumptions/10), the timer holds the whole
timeout while it runs (notes/assumptions/8), with no copy waiting the row is the end of a SYNC frame, and `sentFrame` and
`onLine` keep what the TX pair shows (notes/assumptions/16 and 18). -/
def Obligations.FrameSentStartsTimer : Prop :=
  ∀ (l : Link) (s : State),
    let sends := fun (bytes : List Byte) (f : Arbiter → Arbiter) =>
      s.transmits l = some bytes
        ∧ exec (.frameSent l) s = .next (s.modArbiter l fun a => { f a with sentFrame := bytes })
    let serving := s.linkState l = .enumerating ∨ s.linkState l = .up
    (s.linkState l = .off ∨ s.linkState l = .down → s.transmits l = none ∧ exec (.frameSent l) s = .next s)
    ∧ (s.linkState l = .training → sends (onTheLine 0x01 []) id)
    ∧ (serving → (s.arbiters.get l).onLine = none → (s.arbiters.get l).txOrder = [] → sends (onTheLine 0x01 []) id)
    ∧ (∀ bytes, serving → (s.arbiters.get l).onLine = some bytes → sends bytes fun a => { a with onLine := none })
    ∧ (∀ t r,
        let data := match r.kind with
          | .write => (((s.writeQueues.get l).order.find? fun x => x.node = r.node ∧ x.state = .outstanding).map
              WriteRecord.data).getD []
          | .poll _ _ _ | .fetch _ _ _ | .ident => []
        let kind : Byte := match r.kind with
          | .poll _ _ _ | .fetch _ _ _ => 0x01
          | .write => 0x02
          | .ident => 0x03
        s.copyBytes l t r = onTheLine 0x02
          ([kind, byteOf (t.val + 16 * ((s.arbiters.get l).tags.get t).round.toNat), byteOf (nodeAddress r.node),
            byteOf (r.address.toNat / 256), byteOf r.address.toNat, byteOf r.length] ++ data))
    ∧ ∀ t rest r, serving → (s.arbiters.get l).onLine = none → (s.arbiters.get l).txOrder = t :: rest →
      s.request l t = some r →
      let set := r.settings.getD { timeout := (s.links.get l).timeout, retryLimit := (s.links.get l).retryLimit }
      let sent := { r with settings := some set, frame := .sent, sentOnce := true, timer := some set.timeout }
      sends (s.copyBytes l t r) fun a =>
        { a with tags := upd a.tags t fun tr => { tr with request := some sent }, txOrder := rest }

/-- R108, R121: RESPONSE_TIMER_EXPIRY: the expiry is counted; with retries left the request is resent, else it ends with
TIMEOUT. (`endRequest` hands the ending to its owner.) That the arbiters grant (R113) after the owner and the Node Directory
have acted on the ending is the model's reading (notes/assumptions/6). A row for a free tag, or for a request whose timer does
not run, is the model's own (notes/assumptions/10): nothing but the arbiters' granting; and a running timer may expire at any
time (notes/assumptions/8). -/
def Obligations.TimerExpiryResendsOrEnds : Prop :=
  ∀ (l : Link) (t : Tag) (s : State),
    (s.request l t = none → exec (.responseTimerExpiry l t) s = .next (grants s))
    ∧ ∀ r : Request, s.request l t = some r →
      let counted := s.modLink l fun k => { k with timeouts := satInc k.timeouts }
      let again := { r with retriesUsed := r.retriesUsed + 1, frame := .toSend, timer := none }
      (r.frame = .toSend → exec (.responseTimerExpiry l t) s = .next (grants s))
      ∧ (∀ set, r.frame = .sent → r.settings = some set →
        (r.retriesUsed < set.retryLimit →
          exec (.responseTimerExpiry l t) s = .next (grants ((counted.modLink l fun k =>
            { k with retries := satInc k.retries }).modArbiter l fun a =>
              { a with
                tags := upd a.tags t fun tr => { tr with request := some again }
                txOrder := if t ∈ a.txOrder then a.txOrder else a.txOrder ++ [t] })))
        ∧ (set.retryLimit ≤ r.retriesUsed →
          exec (.responseTimerExpiry l t) s = .next (grants (endRequest l t r .timeout [] counted))))

/-- R86, R98, R99, R101, R102, R108, R173: the frame rows. What the received bytes are judged to be is taken, whatever the row's
name (the model's choice, notes/assumptions/11): what comes before the next start marker is skipped, and bytes that end before
the frame is complete, a CRC that does not match, a kind the part does not receive and a SYNC with a body are bad; BAD_FRAME and
SYNC_FRAME in every link state. `bringsBytes` says which bytes a frame row brings. What line activity is and what the SYNC run
keeps outside TRAINING are read from the rules (notes/assumptions/14 and 26). -/
def Obligations.BadAndSyncFrames : Prop :=
  (crc16 [] = 0xFFFF ∧ ∀ (bs : List Byte) (b : Byte), crc16 (bs ++ [b]) =
      Nat.repeat (fun c : Word16 => if c.getLsbD 15 then c <<< 1 ^^^ 0x1021 else c <<< 1) 8 (crc16 bs ^^^ b.setWidth 16 <<< 8))
  ∧ ∀ (l : Link) (bytes : List Byte) (s : State) (frame : Instr), frame.bringsBytes l bytes →
    let running := s.linkState l = .training ∨ s.linkState l = .enumerating ∨ s.linkState l = .up
    let line := (s.links.get l).received ++ bytes
    let bad := fun (beyond : List Byte) => exec frame s = .next (s.afterBadFrame l beyond)
    (¬ running → exec frame s = .next s)
    ∧ (running → (∀ b ∈ line, b ≠ 0xA5) → bad [])
    ∧ ∀ skipped after, running → line = skipped ++ 0xA5 :: after → (∀ b ∈ skipped, b ≠ 0xA5) →
      (after.length < 2 → bad [])
      ∧ (∀ kind length rest, after = kind :: length :: rest → rest.length < length.toNat + 2 → bad [])
      ∧ (∀ kind length body c1 c0 beyond, after = kind :: length :: (body ++ c1 :: c0 :: beyond) →
          body.length = length.toNat →
          (256 * c1.toNat + c0.toNat ≠ (crc16 (kind :: length :: body)).toNat → bad beyond)
          ∧ ((kind ≠ 0x01 ∧ kind ≠ 0x03 ∧ kind ≠ 0x04 ∧ kind ≠ 0x05) → bad beyond)
          ∧ (kind = 0x01 → body ≠ [] → bad beyond))
      ∧ ∀ beyond, 0xA5 :: after = onTheLine 0x01 [] ++ beyond →
        let good := s.modLink l fun k =>
          { k with consecutiveBad := 0, activity := true, received := beyond,
                   syncRun := if k.state = .training then k.syncRun + 1 else k.syncRun }
        ((s.linkState l ≠ .training ∨ (s.links.get l).syncRun + 1 < 4) →
          exec frame s = .next (grants good))
        ∧ (s.linkState l = .training → 4 ≤ (s.links.get l).syncRun + 1 →
          ∃ t, exec frame s = .next (grants t)
            ∧ (∀ n, t.nodes.get n = if nodeLink n = l then
                { s.nodes.get n with presence := .identifying, cause := some .enumeration } else s.nodes.get n)
            ∧ t = { (good.modLink l fun k =>
                  { k with state := .enumerating, stamp := low16 s.timeBase, deadline := none, silence := 0 }).modArbiter l
                fun a => { a with idents := a.idents ++ (List.finRange 8).filter fun n => nodeLink n = l }
              with nodes := t.nodes })

/-- R98, R99, R117, R119, R120, R173: a RESPONSE frame in every link state: bad where its body is too short or too long, its
node lies outside 1 to 4 or its status outside the four; matched or stray; on BUSY, while retries are left, resent, with no
second copy where one waits already; else the end of its request. (`endRequest` hands the ending to its owner.) The model's
readings: the frame is the next of the bytes received, with the bytes beyond it kept (notes/assumptions/11); bits 3, 6 and 7 of
the tag byte are ignored (notes/assumptions/12); the arbiters grant after the owner and the Node Directory have acted on an
ending (notes/assumptions/6). -/
def Obligations.ResponseMatchedOrStray : Prop :=
  (∀ (l : Link) (b : Byte) (n : Node), frameNode l b = some n ↔ nodeLink n = l ∧ b.toNat = nodeAddress n)
  ∧ ([(0 : Byte), 1, 2, 3].map responseStatus = [some .ok, some .refused, some .badAddress, some .busy])
  ∧ ∀ (l : Link) (bytes skipped body beyond : List Byte) (s : State) (frame : Instr), frame.bringsBytes l bytes →
    (s.links.get l).received ++ bytes = skipped ++ onTheLine 0x03 body ++ beyond → (∀ b ∈ skipped, b ≠ 0xA5) →
    body.length ≤ 255 →
    ((s.linkState l = .off ∨ s.linkState l = .down) → exec frame s = .next s)
    ∧ (s.linkState l = .training ∨ s.linkState l = .enumerating ∨ s.linkState l = .up →
      ((body.length < 3 ∨ 11 < body.length) → exec frame s = .next (s.afterBadFrame l beyond))
      ∧ ∀ tr node status data, body = tr :: node :: status :: data → data.length ≤ 8 →
        ((node.toNat = 0 ∨ 4 < node.toNat ∨ 3 < status.toNat) → exec frame s = .next (s.afterBadFrame l beyond))
        ∧ ∀ n st, frameNode l node = some n → responseStatus status = some st →
          let tag : Tag := ⟨tr.toNat % 8, by omega⟩
          let good := s.afterGoodFrame l beyond
          let matched := fun (r : Request) => s.request l tag = some r ∧ r.sentOnce = true
            ∧ ((s.arbiters.get l).tags.get tag).round.toNat = tr.toNat / 16 % 4 ∧ r.node = n
            ∧ data.length = if st = .ok then (match r.kind with
                | .poll _ _ _ | .fetch _ _ _ => r.length
                | .ident => 8
                | .write => 0) else 0
          (s.linkState l = .training → exec frame s = .next (grants (s.afterDiscarded l beyond)))
          ∧ (s.linkState l ≠ .training → (∀ r, ¬ matched r) →
              exec frame s = .next (grants (good.modLink l fun k => { k with strays := satInc k.strays })))
          ∧ ∀ r, s.linkState l ≠ .training → matched r →
            let left := ∃ set, r.settings = some set ∧ r.retriesUsed < set.retryLimit
            let again := { r with retriesUsed := r.retriesUsed + 1, frame := .toSend, timer := none }
            (st = .busy → left → exec frame s = .next (grants ((good.modLink l fun k =>
              { k with retries := satInc k.retries }).modArbiter l fun a =>
                { a with
                  tags := upd a.tags tag fun tr => { tr with request := some again }
                  txOrder := if tag ∈ a.txOrder then a.txOrder else a.txOrder ++ [tag] })))
            ∧ ((st ≠ .busy ∨ ¬ left) → exec frame s = .next (grants (endRequest l tag r st data good))))

/-! ## Endings of requests, polls and writes -/

/-- R53, R89, R90, R97, R118, R119, R129: a request that ends by a response or its last timeout frees its tag, goes to its
owner, and, if it is a READ or WRITE of a PRESENT node, is reported for the consecutive timeouts, the third of which loses the
node. A copy that waits is withdrawn; where it is the next to be sent it may have been begun and then goes out whole (R97: a
free value, notes/assumptions/16). The WRITE's record is its node's OUTSTANDING one (notes/assumptions/17); NODE_LOST comes
before the endings of the node's other requests (notes/assumptions/23). -/
def Obligations.EndedRequestReachesOwner : Prop :=
  ∀ (l : Link) (t : Tag) (r : Request) (outcome : Reason) (data : List Byte) (s : State),
    let freed := freeTag l t r s
    let withdrawn := fun (line : Option (List Byte)) (u : State) => u.modArbiter l fun a =>
      { a with tags := upd a.tags t fun tr => { tr with request := none }, txOrder := a.txOrder.filter fun x => x ≠ t,
               onLine := line }
    let chosen := { s with choices := s.choices + 1 }
    let next := (s.arbiters.get l).onLine = none ∧ (s.arbiters.get l).txOrder.head? = some t
    (¬ next → freed = withdrawn (s.arbiters.get l).onLine s)
    ∧ (next → freed = withdrawn none chosen ∨ freed = withdrawn (some (s.copyBytes l t r)) chosen)
    ∧ (r.kind = .ident → endRequest l t r outcome data s = identEnded r.node outcome data freed)
    ∧ ∀ owned : State,
      ((∃ i g ep, r.kind = .poll i g ep ∧ owned = applyPollEnding i g r.node r.address r.length ep outcome data freed)
        ∨ (∃ h ticket, r.kind = .fetch h ticket false ∧ owned = freed)
        ∨ (∃ h ticket, r.kind = .fetch h ticket true ∧ owned =
            notify h (eventOf .fetchDone (nodeRef r.node) outcome.code (ticket.setWidth 16)) (freed.modHost h fun hs =>
              { hs with fetchBuffer := some
                          { ticket := ticket, status := outcome, node := r.node, address := r.address, length := r.length,
                            data := if outcome = .ok then data else [] } }))
        ∨ (∃ w, r.kind = .write ∧ w ∈ (s.writeQueues.get l).order ∧ w.node = r.node ∧ w.state = .outstanding
            ∧ (∀ x ∈ (s.writeQueues.get l).order, x.node = r.node → x.state = .outstanding → x = w)
            ∧ owned = finishWrite l w outcome freed)) →
      let counted := owned.modNode r.node fun k => { k with timeouts := k.timeouts + 1 }
      let discarded := ∃ i g ep, r.kind = .poll i g ep ∧ ¬ ∃ e ∈ s.entry i, (s.slots.get i).generation = g
        ∧ e.node = r.node ∧ e.first = r.address ∧ e.length = r.length
      ((s.presence r.node ≠ .present ∨ outcome = .busy ∨ (outcome = .timeout ∧ discarded)) →
        endRequest l t r outcome data s = owned)
      ∧ (s.presence r.node = .present → (outcome = .ok ∨ outcome = .refused ∨ outcome = .badAddress) →
        endRequest l t r outcome data s = owned.modNode r.node fun k => { k with timeouts := 0 })
      ∧ (s.presence r.node = .present → outcome = .timeout → ¬ discarded →
        ((s.nodes.get r.node).timeouts + 1 < 3 → endRequest l t r outcome data s = counted)
        ∧ (3 ≤ (s.nodes.get r.node).timeouts + 1 →
            endRequest l t r outcome data s =
              leavePresent r.node .absent none .nodeLost
                (broadcast (eventOf .nodeLost (nodeRef r.node) Reason.timeout.code 0) counted)))

/-- R8, R16 to R21, R36: what a poll ending does to its entry, for every outcome; an ending for a slot that has moved on does
nothing. -/
def Obligations.PollEndingsApplied : Prop :=
  ∀ (i : SlotIx) (g : Byte) (n : Node) (a : Word16) (len : Nat) (ep : Word16) (outcome : Reason) (data : List Byte)
    (s : State),
    let apply := applyPollEnding i g n a len ep outcome data s
    ((∀ e ∈ s.entry i, ¬ ((s.slots.get i).generation = g ∧ e.node = n ∧ e.first = a ∧ e.length = len)) → apply = s)
    ∧ ∀ e, s.entry i = some e → (s.slots.get i).generation = g → e.node = n → e.first = a → e.length = len →
      let put := fun (e' : Entry) => s.modSlot i fun sl => { sl with entry := some e' }
      let queued := fun (e' : Entry) => (put { e' with phase := .queued }).modPolls (nodeLink n)
        (· ++ [{ slot := i, generation := g }])
      let idle := { e with phase := .idle, repoll := false }
      (e.state = .suspended → apply = put idle)
      ∧ (e.state ≠ .suspended →
        (outcome = .ok → e.epoch = ep →
          let told := fun (t : State) => evaluateWatches i
            (if e.state = .failed then entryEvent i .entryRecovered .none t else t)
          (e.repoll = false → apply = told (put { idle with data := data.map some, age := 0, state := .valid }))
          ∧ (e.repoll = true → apply = told (queued { idle with data := data.map some, age := 0, state := .stale })))
        ∧ (outcome = .ok → e.epoch ≠ ep → apply = if e.pollable then queued idle else put idle)
        ∧ ((outcome = .refused ∨ outcome = .badAddress ∨ outcome = .timeout) →
          let failed := { idle with state := .failed, fault := outcome }
          let told := fun (t : State) => if e.state = .failed then t else entryEvent i .entryFailed outcome t
          (e.repoll = false → apply = told (put failed)) ∧ (e.repoll = true → apply = told (queued failed)))
        ∧ ((outcome = .busy ∨ outcome = .linkDown ∨ outcome = .stopped ∨ outcome = .nodeLost ∨ outcome = .nodeRestarted) →
          apply = if e.repoll && e.pollable then queued idle else put idle))

/-- R55, R56, R61, R62: the ending of a taken write: the mirror, WRITE_FAILED for a reported failure, DRAIN accounting, and the
freeing of its record, after which the last covered write completes the DRAIN. -/
def Obligations.WriteEndingReportsAndFrees : Prop :=
  ∀ (l : Link) (r : WriteRecord) (outcome : Reason) (s : State),
    let mirrored := if outcome = .ok then mirrorWriteOk r.node r.address r.data s
      else mirrorWriteFailed r.node r.address r.data.length s
    let told := if outcome ≠ .ok ∧ r.reported = true then
        notify r.origin { kind := .writeFailed, subject := nodeRef r.node, reason := outcome.code, value := r.seq.getD 0,
                          detail := some (r.address, byteOf r.data.length) } mirrored
      else mirrored
    let others := fun (q : WriteQueue) => { q with order := q.order.erase r }
    let left := ∃ m, ∃ x ∈ (if m = l then others (s.writeQueues.get m) else s.writeQueues.get m).order,
      x.origin = r.origin ∧ x.covered = true
    (r.covered = false → finishWrite l r outcome s = told.modWrites l others)
    ∧ (r.covered = true → ∀ d, (s.hosts.get r.origin).drain = some d →
        let failed := if outcome = .ok then d.failed else d.failed + 1
        let counted := (told.modWrites l others).modHost r.origin fun hs =>
          { hs with drain := some { d with failed := failed } }
        (left → finishWrite l r outcome s = counted)
        ∧ (¬ left → finishWrite l r outcome s =
            (notify r.origin (eventOf .drainDone 0 Reason.ok.code (word16 (byteOf d.covered) (byteOf failed)))
              counted).modHost r.origin fun hs => { hs with drain := none }))

/-- R3, R7, R22, R23, R27, R36, R40, R165: what a write that completed OK, and one that failed, does to every entry it touches,
with the watches evaluated and the events handed to the holders after an OK one, and that it leaves every other entry alone.
That a covering write sets the age to 0 in SUSPENDED and TOO_LONG entries too is read from R40 (notes/assumptions/13). -/
def Obligations.WriteOutcomesReachTouchedEntries : Prop :=
  ∀ (n : Node) (a : Word16) (bytes : List Byte) (s : State),
    let share := fun (e : Entry) => e.node = n ∧ a.toNat < e.first.toNat + e.length ∧ e.first.toNat < a.toNat + bytes.length
    let covers := fun (e : Entry) => a.toNat ≤ e.first.toNat ∧ e.first.toNat + e.length ≤ a.toNat + bytes.length
    let good := mirrorWriteOk n a bytes s
    let failed := mirrorWriteFailed n a bytes.length s
    let zone := fun (e : Entry) (w : Watch) =>
      let x := numberOf (e.data.filterMap id)
      if e.hasData = false then w.zone else if x < w.low.toNat then .below else if w.high.toNat < x then .above else .inside
    let tell := fun (k : EventKind) (i : SlotIx) (reason : Byte) (value : Word16) (hs : HostState) =>
      hs.receive (low16 s.timeBase) (eventOf k (byteOf i.val) reason value)
    let told := fun (h : Sys2Proof.Host) (hs : HostState) (i : SlotIx) =>
      match s.entry i, good.entry i with
      | some e, some e' =>
        if share e then
          match e.holders.get h with
          | none => hs
          | some r =>
            let hs := if e.state = .failed ∧ e'.state = .valid then tell .entryRecovered i 0 0 hs else hs
            match r.watch with
            | none => hs
            | some w =>
              if zone e' w = w.zone ∨ (w.zone = .unknown ∧ zone e' w = .inside) then hs
              else tell .watch i w.zone.code ((zone e' w).code.setWidth 16) hs
        else hs
      | _, _ => hs
    (good = { s with slots := good.slots, hosts := good.hosts })
    ∧ (∀ h, good.hosts.get h = (List.finRange 48).foldl (told h) (s.hosts.get h))
    ∧ (failed = { s with slots := failed.slots, pollQueues := failed.pollQueues })
    ∧ (∀ i, (∀ e ∈ s.entry i, ¬ share e) → good.slots.get i = s.slots.get i ∧ failed.slots.get i = s.slots.get i)
    ∧ (∀ i e, s.entry i = some e → share e →
        (∃ e', good.slots.get i = { s.slots.get i with entry := some e' }
          ∧ e'.epoch = e.epoch + 1 ∧ e'.length = e.length
          ∧ (∀ k, k < e.length → e'.data[k]? =
              if a.toNat ≤ e.first.toNat + k ∧ e.first.toNat + k < a.toNat + bytes.length then
                some bytes[e.first.toNat + k - a.toNat]?
              else e.data[k]?)
          ∧ e'.age = (if covers e then 0 else e.age)
          ∧ e'.state = (if covers e ∧ e.state ≠ .suspended ∧ ¬ (e.state = .failed ∧ e.fault = .tooLong) then .valid
              else e.state)
          ∧ e'.node = e.node ∧ e'.first = e.first ∧ e'.phase = e.phase ∧ e'.repoll = e.repoll ∧ e'.fault = e.fault
          ∧ e'.skipped = e.skipped
          ∧ ∀ h, e'.holders.get h = (e.holders.get h).map fun r =>
              { r with watch := r.watch.map fun w => { w with zone := zone e' w } })
        ∧ failed.slots.get i = { s.slots.get i with entry := (s.entry i).map fun e =>
            { e with epoch := e.epoch + 1, state := if e.state = .valid then .stale else e.state,
                     phase := if e.phase = .idle ∧ e.pollable then .queued else e.phase } })
    ∧ ∀ l, failed.pollQueues.get l = s.pollQueues.get l ++
        ((List.finRange 48).filter fun i => (s.entry i).any fun e =>
          decide (share e ∧ e.phase = .idle ∧ e.pollable = true ∧ nodeLink e.node = l)).map
            fun i => { slot := i, generation := (s.slots.get i).generation }

/-- R24, R87, R88, R98, R99, R125, R173: NOTICE and HELLO frames in every link state and presence. The model's readings: the
frame is the next of the bytes received, with the bytes beyond it kept (notes/assumptions/11); after a restart has freed tags
the arbiters grant when the whole change is complete and the IDENT handed over (notes/assumptions/6). NODE_RESTARTED comes
before the endings (notes/assumptions/23). -/
def Obligations.NoticeAndHelloFrames : Prop :=
  ∀ (l : Link) (bytes skipped beyond : List Byte) (s : State) (frame : Instr), frame.bringsBytes l bytes →
    (∀ b ∈ skipped, b ≠ 0xA5) →
    let brings := fun (kind : Byte) (body : List Byte) =>
      (s.links.get l).received ++ bytes = skipped ++ onTheLine kind body ++ beyond ∧ body.length ≤ 255
    let good := s.afterGoodFrame l beyond
    let running := s.linkState l = .training ∨ s.linkState l = .enumerating ∨ s.linkState l = .up
    let handed := s.linkState l = .enumerating ∨ s.linkState l = .up
    (¬ running → exec frame s = .next s)
    ∧ (∀ body, brings 0x05 body → running → (body.length ≠ 1 ∨ ∃ b ∈ body, b.toNat = 0 ∨ 4 < b.toNat) →
        exec frame s = .next (s.afterBadFrame l beyond))
    ∧ (∀ body, brings 0x04 body → running → body.length ≠ 5 → exec frame s = .next (s.afterBadFrame l beyond))
    ∧ (∀ node count a1 a0 len, brings 0x04 [node, count, a1, a0, len] → running →
        (node.toNat = 0 ∨ 4 < node.toNat ∨ 15 < count.toNat ∨ len.toNat = 0 ∨ 16 < len.toNat) →
        exec frame s = .next (s.afterBadFrame l beyond))
    ∧ (∀ node count a1 a0 len n, brings 0x04 [node, count, a1, a0, len] → frameNode l node = some n →
        count.toNat ≤ 15 → 1 ≤ len.toNat → len.toNat ≤ 16 →
        let a := word16 a1 a0
        (s.linkState l = .training → exec frame s = .next (grants (s.afterDiscarded l beyond)))
        ∧ (handed → s.presence n ≠ .present → exec frame s = .next (grants good))
        ∧ (handed → s.presence n = .present →
          let marked := fun (e : Entry) => e.node = n ∧ e.state ≠ .suspended
            ∧ (count.toNat ≠ ((s.nodes.get n).noticeCount.toNat + 1) % 16
                ∨ (a.toNat < e.first.toNat + e.length ∧ e.first.toNat < a.toNat + len.toNat))
          ∃ t, exec frame s = .next (grants t)
            ∧ t = { good with slots := t.slots, pollQueues := t.pollQueues, nodes := t.nodes }
            ∧ t.nodes = (s.modNode n fun r => { r with noticeCount := count.setWidth 4 }).nodes
            ∧ (∀ i, t.slots.get i = { s.slots.get i with
                entry := (s.entry i).map fun e =>
                  if marked e then
                    { e with state := if e.state = .valid then .stale else e.state,
                             phase := if e.phase = .idle ∧ e.pollable then .queued else e.phase,
                             repoll := if e.phase = .inFlight then true else e.repoll }
                  else e })
            ∧ ∀ m, t.pollQueues.get m = s.pollQueues.get m ++
                ((List.finRange 48).filter fun i => (s.entry i).any fun e =>
                  decide (marked e ∧ e.phase = .idle ∧ e.pollable = true ∧ nodeLink e.node = m)).map
                    fun i => { slot := i, generation := (s.slots.get i).generation }))
    ∧ ∀ node n, brings 0x05 [node] → frameNode l node = some n →
        (s.linkState l = .training → exec frame s = .next (grants (s.afterDiscarded l beyond)))
        ∧ (handed → (s.linkState l ≠ .up ∨ s.presence n = .identifying ∨ s.presence n = .quarantined) →
          exec frame s = .next (grants good))
        ∧ (s.linkState l = .up → s.presence n = .absent →
          exec frame s = .next (grants ((good.modNode n fun r =>
            { r with presence := .identifying, cause := some .found }).modArbiter l fun a =>
              { a with idents := a.idents ++ [n] })))
        ∧ (s.linkState l = .up → s.presence n = .present →
          exec frame s = .next (grants ((leavePresent n .identifying (some .restart) .nodeRestarted
            (broadcast (eventOf .nodeRestarted (nodeRef n) 0 0) good)).modArbiter l fun a =>
              { a with idents := a.idents ++ [n] })))

/-- R26, R58, R59, R62, R83 to R86, R110: the ending of an IDENT decides the node's record and presence, its entries, their
polls and its HELD writes, what each host is told (the node's event, then the entries that are too long and the writes that
fail, in either order, then LINK_UP with the number of PRESENT nodes), and whether its link is now UP. The model's readings: at
an arrival, entries and HELD writes come in either order (notes/assumptions/5: R81 gives none), and bits of the capability and
notice count bytes that no table names are ignored (notes/assumptions/12). -/
def Obligations.IdentEndingDecidesPresence : Prop :=
  ∀ (n : Node) (outcome : Reason) (data : List Byte) (s : State),
    let t := identEnded n outcome data s
    let r := s.nodes.get n
    let l := nodeLink n
    let q := s.writeQueues.get l
    let last := ∀ m, m ≠ n → nodeLink m = l → (s.nodes.get m).cause ≠ some .enumeration
    let failing := outcome = .timeout ∨ outcome = .busy ∨ outcome = .refused ∨ outcome = .badAddress
    let held := fun (x : WriteRecord) => x.node = n ∧ x.state = .held
    let fails := fun (p : WriteRecord → Bool) (why : Reason) (h : Sys2Proof.Host) =>
      (q.order.filter p).filterMap (WriteRecord.failing h why)
    let up := if s.linkState l = .enumerating ∧ last then
      [plainly .linkUp (byteOf l.val) 0
        (BitVec.ofNat 16 ((List.finRange 8).countP fun m => nodeLink m = l ∧ t.presence m = .present))] else []
    let failAll := fun (why : Reason) (event : List (Option EventBody × Bool)) =>
      t.writeQueues = (s.modWrites l fun q => { q with order := q.order.filter fun x => ¬ held x }).writeQueues
      ∧ (s.trafficOk → t.pollQueues = s.pollQueues
          ∧ ∀ h, t.hosts.get h = s.handed h (event ++ fails (fun x => decide (held x)) why h ++ up))
    ((r.presence ≠ .identifying ∨ outcome = .linkDown ∨ outcome = .stopped) → t = s)
    ∧ (r.presence = .identifying → r.cause ≠ none →
      ((failing ∨ (outcome = .ok ∧ data.length = 8)) →
        (∀ m, m ≠ n → t.nodes.get m = s.nodes.get m)
        ∧ t.linkState l = (if s.linkState l = .enumerating ∧ last then .up else s.linkState l))
      ∧ (failing → t.nodes.get n = { r with presence := .absent, cause := none }
        ∧ failAll .nodeLost (if r.cause = some .restart ∨ r.cause = some .lift then
            [plainly .nodeLost (nodeRef n) outcome.code 0] else []))
      ∧ ∀ v1 v0 m1 m0 rev cap count x, outcome = .ok → data = [v1, v0, m1, m0, rev, cap, count, x] →
        let now : Identity :=
          { vendor := word16 v1 v0, model := word16 m1 m0, revision := rev,
            maxLength := max 1 (min 8 (cap.toNat % 16)), sendsNotices := cap.getLsbD 4 }
        let recorded := { r with identity := some now, noticeCount := count.setWidth 4, cause := none }
        let accepted := ∀ p ∈ r.pin, p.vendor = now.vendor ∧ p.model = now.model
        let differs := ∃ i ∈ r.identity, i.vendor ≠ now.vendor ∨ i.model ≠ now.model ∨ i.revision ≠ now.revision
        let tooLong := fun (x : WriteRecord) => decide (held x) && decide (now.maxLength < x.data.length)
        (¬ accepted → t.nodes.get n = { recorded with presence := .quarantined }
          ∧ failAll .quarantined [plainly .nodeQuarantined (nodeRef n) Reason.ident.code now.model]
          ∧ ∀ i e, s.entry i = some e → e.node = n → e.state = .suspended →
              ∃ e', t.entry i = some e' ∧ e'.state = .suspended)
        ∧ (accepted → t.nodes.get n = { recorded with presence := .present, timeouts := 0 }
          ∧ t.writeQueues = (s.modWrites l fun q =>
              { q with
                order := (q.order.filter fun x => !tooLong x).map fun x =>
                  if held x then { x with state := .queued } else x }).writeQueues
          ∧ (s.trafficOk →
              let event := if r.identity = none then [plainly .nodeArrived (nodeRef n) 0 now.model]
                else if differs then [plainly .nodeChanged (nodeRef n) 0 now.model]
                else if r.cause = some .restart then [] else [plainly .nodeArrived (nodeRef n) 0 now.model]
              let entries := fun (h : Sys2Proof.Host) => (List.finRange 48).flatMap fun i => match s.entry i with
                | none => []
                | some e =>
                  if e.node = n ∧ e.state = .suspended ∧ now.maxLength < e.length ∧ e.holders.get h ≠ none then
                    [plainly .entryFailed (byteOf i.val) Reason.tooLong.code 0]
                  else []
              (∃ entriesFirst : Bool, ∀ h, t.hosts.get h = s.handed h (event
                ++ (if entriesFirst then entries h ++ fails tooLong .tooLong h else fails tooLong .tooLong h ++ entries h)
                ++ up))
              ∧ ∀ m, t.pollQueues.get m = s.pollQueues.get m ++ ((List.finRange 48).filter fun i =>
                  (s.entry i).any fun e => decide (e.node = n ∧ e.state = .suspended ∧ nodeLink e.node = m ∧ e.phase = .idle
                    ∧ e.length ≤ now.maxLength)).map fun i => { slot := i, generation := (s.slots.get i).generation })
          ∧ ∀ i e, s.entry i = some e → e.node = n → e.state = .suspended →
              ∃ e', t.entry i = some e' ∧ e'.data = e.data ∧ e'.age = e.age
                ∧ e'.state = (if now.maxLength < e.length then .failed else if e.hasData then .stale else .unfilled)
                ∧ (now.maxLength < e.length → e'.fault = .tooLong)))

/-! ## Events and watches -/

/-- R27, R158 to R162: the arrival of an event at a host's queue: masked, counted into an OVERFLOW record (and, while that
record is being read, apart from it), stored, or replaced by one; the kinds that can be masked (R170) and their bits; an event
for all hosts, and an entry event, which goes to each holder alone; the interrupt line. That an event counted apart is counted
into the record's own value too is read from R160 (notes/assumptions/25). -/
def Obligations.EventArrivalStoredOrCounted : Prop :=
  (∀ (h : Sys2Proof.Host) (b : EventBody) (s : State),
    let hs := s.hosts.get h
    let t := notify h b s
    let full := ∃ r ∈ hs.events, r.kind = .overflow
    let made := fun (k : EventKind) (subject reason : Byte) (value : Word16) (detail : Option (Word16 × Byte)) =>
      s.modHost h fun hs =>
        { hs with events := hs.events ++ [{ kind := k, number := hs.eventCounter + 1, subject := subject, reason := reason,
                                            value := value, detail := detail, stamp := low16 s.timeBase }],
                  eventCounter := hs.eventCounter + 1 }
    let masked := ∃ i, b.kind.maskBit = some i ∧ hs.mask.getLsbD i = true
    (masked → t = s)
    ∧ (¬ masked → full →
        (∀ g, g ≠ h → t.hosts.get g = s.hosts.get g) ∧ (t.hosts.get h).eventCounter = hs.eventCounter
        ∧ (t.hosts.get h).events = (hs.events.map fun r =>
            if r.kind = .overflow then { r with value := if r.value < 255 then r.value + 1 else r.value } else r)
        ∧ ((∃ start copy sent, hs.transaction = .controlRead start copy sent ∧ ∃ r ∈ copy.event, r.kind = .overflow) →
            (t.hosts.get h).countedApart = if hs.countedApart = 255 then hs.countedApart else hs.countedApart + 1)
        ∧ ((∀ start copy sent, hs.transaction = .controlRead start copy sent → ∀ r ∈ copy.event, r.kind ≠ .overflow) →
            (t.hosts.get h).countedApart = hs.countedApart))
    ∧ (¬ masked → ¬ full → hs.events.length < 15 → t = made b.kind b.subject b.reason b.value b.detail)
    ∧ (¬ masked → ¬ full → 15 ≤ hs.events.length → t = made .overflow 0 0 1 none)
    ∧ (s.intAsserted h = true ↔ hs.notifyEnable = true ∧ hs.events ≠ []))
  ∧ (∀ (b : EventBody) (s : State), broadcast b s = notify 2 b (notify 1 b (notify 0 b s)))
  ∧ ([EventKind.entryFailed, .entryRecovered, .entryStale, .watch, .nodeArrived, .nodeChanged, .nodeQuarantined, .nodeRestarted,
      .nodeLost, .linkUp, .linkDown].map EventKind.maskBit = (List.range 11).map some)
  ∧ (∀ k ∈ [EventKind.writeFailed, .fetchDone, .drainDone, .claimGranted, .claimExpired, .overflow], k.maskBit = none)
  ∧ (∀ (i : SlotIx) (k : EventKind) (why : Reason) (s : State) (e : Entry), s.entry i = some e →
      entryEvent i k why s = { s with hosts := (entryEvent i k why s).hosts }
      ∧ ∀ h, (entryEvent i k why s).hosts.get h =
          if e.holders.get h = none then s.hosts.get h
          else (notify h (eventOf k (byteOf i.val) why.code 0) s).hosts.get h)

/-- R3, R165: "has data" and the number that the bytes make; the evaluation of one holder's watch, and of an entry's watches in
ascending host number. -/
def Obligations.WatchEvaluatedAgainstBand : Prop :=
  (∀ e : Entry, e.hasData = true ↔ ∀ d ∈ e.data, d ≠ none)
  ∧ (numberOf [] = 0 ∧ ∀ (bs : List Byte) (b : Byte), numberOf (bs ++ [b]) = 256 * numberOf bs + b.toNat)
  ∧ (∀ (i : SlotIx) (s : State), evaluateWatches i s = evaluateWatch i 2 (evaluateWatch i 1 (evaluateWatch i 0 s)))
  ∧ (∀ (i : SlotIx) (h : Sys2Proof.Host) (s : State), (∀ e ∈ s.entry i, ∀ r ∈ e.holders.get h, r.watch = none) →
      evaluateWatch i h s = s)
  ∧ ∀ (i : SlotIx) (h : Sys2Proof.Host) (s : State) (e : Entry) (r : Holder) (w : Watch),
    s.entry i = some e → e.holders.get h = some r → r.watch = some w →
    let x := numberOf (e.data.filterMap id)
    let moved := fun (z : Zone) => s.modEntry i fun e =>
      { e with holders := upd e.holders h fun _ => some { r with watch := some { w with zone := z } } }
    let told := fun (z : Zone) =>
      if w.zone = z then s
      else if w.zone = .unknown ∧ z = .inside then moved z
      else notify h (eventOf .watch (byteOf i.val) w.zone.code (z.code.setWidth 16)) (moved z)
    (e.hasData = false → evaluateWatch i h s = s)
    ∧ (e.hasData = true → x < w.low.toNat → evaluateWatch i h s = told .below)
    ∧ (e.hasData = true → w.low.toNat ≤ x → x ≤ w.high.toNat → evaluateWatch i h s = told .inside)
    ∧ (e.hasData = true → w.low.toNat ≤ x → w.high.toNat < x → evaluateWatch i h s = told .above)

/-! ## The host ports -/

/-- R132, R134, R142, R143, R146, R147, R150: address bytes. The open transaction is ended first, by the rule of its kind: the
row that ends an alias write, an alias read or a control window read, and the row of the command that a control window write
gave. Then the control address in both directions, addresses that match nothing, and reads at an alias, strict or not. What a
command row stands for and that an address is decoded whatever the row's name are read from the rules (notes/assumptions/4 and
9). -/
def Obligations.AddressBytesDecoded : Prop :=
  ∀ (h : Sys2Proof.Host) (a : BitVec 7) (d : Direction) (s : State),
    let s0 := endTransaction h s
    let hs := s0.hosts.get h
    let answer := fun (x : BusAnswer) (t : Transaction) => s0.modHost h fun hs => { hs with answer := x, transaction := t }
    let copy : ControlCopy :=
      { result := hs.result, event := hs.events.head?, report := hs.report, fetch := hs.fetchBuffer, port := h,
        controlAddress := s0.controlAddress, setupHost := s0.setupHost }
    let closed := s.modHost h fun hs => { hs with transaction := .idle }
    (match s.transaction h with
      | .idle => s0 = s
      | .ignored => s0 = closed
      | .controlWrite p bytes =>
        (∀ c : Command, p = some c.address → bytes ≠ [] → exec (c.row h bytes) s = .next s0)
        ∧ ((bytes = [] ∨ ∀ c : Command, p ≠ some c.address) → s0 = closed)
      | .controlRead _ _ _ => exec (.controlReadEnd h) s = .next s0
      | .aliasWrite _ _ _ => exec (.aliasWriteEnd h) s = .next s0
      | .aliasRead _ _ _ _ _ _ => exec (.aliasReadEnd h) s = .next s0)
    ∧ exec (.controlWriteAddressByte h) s = .next (answer .ack (.controlWrite none []))
    ∧ exec (.controlReadAddressByte h) s = .next (s0.modHost h fun hs =>
        { hs with answer := .ack, transaction := .controlRead hs.pointer copy 0, countedApart := 0 })
    ∧ ((a ≠ s0.controlAddress ∧ ∀ k, ∀ w ∈ hs.aliases.get k, w.address ≠ a) →
        exec (.addressNotAcknowledged h a d) s = .next (answer .nack .ignored)
        ∧ exec (.aliasReadAddressByte h a) s = .next (answer .nack .ignored)
        ∧ exec (.aliasWriteAddressByte h a) s = .next (answer .nack .ignored))
    ∧ ∀ k w, a ≠ s0.controlAddress → hs.aliases.get k = some w → w.address = a →
      (∀ j, j < k → ∀ x ∈ hs.aliases.get j, x.address ≠ a) →
      let snapshot := (List.finRange 48).filterMap fun i => (s0.entry i).bind fun e =>
        if e.node = w.node ∧ w.base.toNat < e.first.toNat + e.length ∧ e.first.toNat < w.base.toNat + w.size then
          some ({ first := e.first, data := e.data, state := e.state, age := e.age } : SnapshotEntry)
        else none
      let register := w.base.toNat + hs.pointer.toNat
      let at' := if hs.pointer.toNat < w.size then
          snapshot.find? fun e => e.first.toNat ≤ register ∧ register < e.first.toNat + e.data.length
        else none
      let fresh := ∃ e ∈ at', e.state = .valid
      ((w.strict = false ∨ fresh) →
        exec (.aliasReadAddressByte h a) s = .next (answer .ack (.aliasRead k w hs.pointer snapshot 0 0)))
      ∧ (w.strict = true → ¬ fresh →
        exec (.aliasReadAddressByte h a) s = .next ((answer .nack .ignored).modHost h fun hs =>
          { hs with report :=
              { outcome := .refused, slot := k, first := BitVec.ofNat 16 register, bytesRead := 0, fillBytes := 0,
                worst := at'.map SnapshotEntry.state, oldest := (at'.map SnapshotEntry.age).getD 0,
                touched := if at'.isSome then 1 else 0 } }))

/-- R46, R48, R74: the write-direction address byte of an alias is refused in the six cases, and otherwise reserves a record.
The remote address 0 that the record holds until its register byte is the model's choice (notes/assumptions/28). -/
def Obligations.AliasWriteAcceptedOrRefused : Prop :=
  ∀ (h : Sys2Proof.Host) (k : AliasIx) (w : AliasSlot) (s : State),
    let s0 := endTransaction h s
    let l := nodeLink w.node
    let q := s0.writeQueues.get l
    let refused := w.access = .readOnly ∨ s0.linkState l ≠ .up ∨ s0.presence w.node ≠ .present
      ∨ (∃ c ∈ (s0.claims.get w.node).holder, c.host ≠ h)
      ∨ 6 ≤ (q.reserved ++ q.order).countP (fun r => r.origin = h) ∨ 16 ≤ (q.reserved ++ q.order).length
    w.address ≠ s0.controlAddress → (s0.hosts.get h).aliases.get k = some w →
    (∀ j, j < k → ∀ x ∈ (s0.hosts.get h).aliases.get j, x.address ≠ w.address) →
    (refused → exec (.aliasWriteAddressByte h w.address) s =
      .next (s0.modHost h fun hs => { hs with answer := .nack, transaction := .ignored }))
    ∧ (¬ refused → exec (.aliasWriteAddressByte h w.address) s =
      .next ((s0.modWrites l fun q => { q with reserved := q.reserved ++
          [{ origin := h, reported := true, seq := none, node := w.node, address := 0, data := [], state := .reserved,
             lapse := none, covered := false }] }).modHost h fun hs =>
        { hs with answer := .ack, transaction := .aliasWrite k w .register }))

/-- R49, R138 to R141: the register byte and the data bytes of control window and alias writes: acknowledged or refused, the
pointer, and what is stored. -/
def Obligations.WriteBytesJudged : Prop :=
  ∀ (h : Sys2Proof.Host) (b : Byte) (s : State),
    let hs := s.hosts.get h
    let answer := fun (x : BusAnswer) (t : Transaction) => s.modHost h fun hs => { hs with answer := x, transaction := t }
    let refusedAll := fun (c : Instr) => exec c s = .next (answer .nack .ignored)
    (hs.transaction = .ignored → refusedAll (.registerByte h b) ∧ refusedAll (.aliasWriteDataByte h b)
        ∧ refusedAll (.controlWriteDataByte h b) ∧ refusedAll (.controlWriteOtherPosition h b))
    ∧ (∀ bytes, hs.transaction = .controlWrite none bytes →
        exec (.registerByte h b) s = .next (s.modHost h fun hs =>
          { hs with pointer := b, answer := .ack, transaction := .controlWrite (some b) bytes }))
    ∧ (∀ p bytes, hs.transaction = .controlWrite (some p) bytes →
        ((∃ c : Command, c.address = p) → bytes.length < 16 →
          exec (.controlWriteDataByte h b) s = .next (s.modHost h fun hs =>
            { hs with pointer := hs.pointer + 1, answer := .ack, transaction := .controlWrite (some p) (bytes ++ [b]) }))
        ∧ ((∃ c : Command, c.address = p) → 16 ≤ bytes.length →
          exec (.controlWriteDataByte h b) s = .next (s.modHost h fun hs => { hs with answer := .nack }))
        ∧ ((∀ c : Command, c.address ≠ p) →
          exec (.controlWriteOtherPosition h b) s = .next (s.modHost h fun hs => { hs with answer := .nack })))
    ∧ (∀ k w, hs.transaction = .aliasWrite k w .refused →
        exec (.aliasWriteDataByte h b) s = .next (answer .nack (.aliasWrite k w .refused)))
    ∧ (∀ k w, hs.transaction = .aliasWrite k w .register →
        (b.toNat < w.size → exec (.registerByte h b) s =
          .next ((s.modWrites (nodeLink w.node) fun q => { q with reserved := q.reserved.map fun r =>
              if r.origin = h then { r with address := w.base + b.setWidth 16 } else r }).modHost h fun hs =>
            { hs with pointer := b, answer := .ack, transaction := .aliasWrite k w (.data b.toNat) }))
        ∧ (w.size ≤ b.toNat → exec (.registerByte h b) s =
          .next ((s.modWrites (nodeLink w.node) fun q => { q with reserved := q.reserved.filter fun r =>
              r.origin ≠ h }).modHost h fun hs =>
            { hs with answer := .nack, transaction := .aliasWrite k w .refused })))
    ∧ (∀ k w p r, hs.transaction = .aliasWrite k w (.data p) →
        r ∈ (s.writeQueues.get (nodeLink w.node)).reserved → r.origin = h →
        (∀ x ∈ (s.writeQueues.get (nodeLink w.node)).reserved, x.origin = h → x = r) →
        let room := r.data.length + 1 ≤ 8 ∧ r.data.length + 1 ≤ s.maxLength w.node ∧ p < w.size
        (¬ room → exec (.aliasWriteDataByte h b) s = .next (answer .nack (.aliasWrite k w .refused)))
        ∧ (room → exec (.aliasWriteDataByte h b) s =
          .next ((s.modWrites (nodeLink w.node) fun q => { q with reserved := q.reserved.map fun r =>
              if r.origin = h then { r with data := r.data ++ [b] } else r }).modHost h fun hs =>
            { hs with pointer := hs.pointer + 1, answer := .ack, transaction := .aliasWrite k w (.data (p + 1)) })))

/-- R138, R144, R145: the bytes of an alias read and the report its end leaves. -/
def Obligations.AliasReadServedAndReported : Prop :=
  ∀ (h : Sys2Proof.Host) (s : State) (k : AliasIx) (w : AliasSlot) (start : Byte) (snap : List SnapshotEntry) (sent fill : Nat),
    (s.hosts.get h).transaction = .aliasRead k w start snap sent fill →
    let p := start.toNat + sent
    let register := w.base.toNat + p
    let lies := fun (e : SnapshotEntry) => e.first.toNat ≤ register ∧ register < e.first.toNat + e.data.length
    let sends := fun (x : Byte) (filled : Nat) => exec (.aliasReadByte h) s = .next (s.modHost h fun hs =>
      { hs with answer := .byte x, pointer := hs.pointer + 1,
                transaction := .aliasRead k w start snap (sent + 1) (fill + filled) })
    (∀ before e after x, p < w.size → snap = before ++ e :: after → lies e → (∀ y ∈ before, ¬ lies y) →
        e.data[register - e.first.toNat]? = some (some x) → sends x 0)
    ∧ (∀ before e after, p < w.size → snap = before ++ e :: after → lies e → (∀ y ∈ before, ¬ lies y) →
        e.data[register - e.first.toNat]? = some none → sends 0xFF 1)
    ∧ ((w.size ≤ p ∨ ∀ e ∈ snap, ¬ lies e) → sends 0xFF 1)
    ∧ ∃ t, exec (.aliasReadEnd h) s = .next t
      ∧ t = s.modHost h (fun hs => { hs with report := (t.hosts.get h).report, transaction := .idle })
      ∧ let rep := (t.hosts.get h).report
        let touched := snap.filter fun e => decide (∃ j < sent, start.toNat + j < w.size
          ∧ e.first.toNat ≤ w.base.toNat + start.toNat + j
          ∧ w.base.toNat + start.toNat + j < e.first.toNat + e.data.length)
        rep.outcome = .served ∧ rep.slot = k ∧ rep.first = BitVec.ofNat 16 (w.base.toNat + start.toNat)
        ∧ rep.bytesRead.toNat = min sent 65535 ∧ rep.fillBytes.toNat = min fill 65535
        ∧ rep.touched = touched.length
        ∧ (touched = [] → rep.worst = none ∧ rep.oldest = 0)
        ∧ (∀ e ∈ touched, e.age ≤ rep.oldest ∧ ∃ x, rep.worst = some x ∧ e.state.rank ≤ x.rank)
        ∧ (touched ≠ [] → (∃ e ∈ touched, e.age = rep.oldest) ∧ ∃ e ∈ touched, rep.worst = some e.state)

/-- R129, R138, R145, R147, R161, R168, R169, R171: the codes of the names, the bytes of a control window read, and the removal
of the copied event record at its end. That every byte of FETCH_DATA reads zero where no fetch result is held, and the data
bytes of a failed one, is the model's reading (notes/assumptions/15). -/
def Obligations.ControlReadServedAndEventRemoved : Prop :=
  ([Status.ok, .updated, .joined, .accepted, .granted, .waiting, .busy, .notPermitted, .badParam, .tableFull, .overlap, .notFound,
      .notHolder, .duplicateAlias, .linkNotUp, .nodeNotPresent, .alreadyHeld, .alreadyWaiting].map Status.code =
    [0x00, 0x01, 0x02, 0x03, 0x04, 0x05, 0x10, 0x11, 0x12, 0x13, 0x14, 0x15, 0x16, 0x17, 0x18, 0x19, 0x1A, 0x1B])
  ∧ ([Reason.none, .ok, .refused, .badAddress, .busy, .timeout, .linkDown, .stopped, .nodeLost, .nodeRestarted, .quarantined,
      .tooLong, .noPartner, .errors, .silent, .granted, .ident, .pin].map Reason.code = (List.range 18).map (BitVec.ofNat 8))
  ∧ ([EventKind.writeFailed, .fetchDone, .drainDone, .claimGranted, .claimExpired, .entryFailed, .entryRecovered, .entryStale,
      .watch, .nodeArrived, .nodeChanged, .nodeQuarantined, .nodeRestarted, .nodeLost, .linkUp, .linkDown, .overflow].map
        EventKind.code = (List.range' 1 17).map (BitVec.ofNat 8))
  ∧ ([EntryState.unfilled, .valid, .stale, .failed, .suspended].map EntryState.code = [1, 2, 3, 4, 5]
    ∧ [EntryState.valid, .stale, .unfilled, .failed, .suspended].map EntryState.rank = [1, 2, 3, 4, 5]
    ∧ [RateClass.timed 0, .timed 1, .timed 2, .timed 3, .notice].map RateClass.code = [0, 1, 2, 3, 4]
    ∧ [PollPhase.idle, .queued, .inFlight].map PollPhase.code = [0, 1, 2]
    ∧ [Zone.unknown, .below, .inside, .above].map Zone.code = [0, 1, 2, 3]
    ∧ [Presence.unknown, .identifying, .present, .absent, .quarantined].map Presence.code = [0, 1, 2, 3, 4]
    ∧ [none, some IdentCause.enumeration, some .found, some .restart, some .lift].map identCauseCode = [0, 1, 2, 3, 4]
    ∧ [LinkState.off, .training, .enumerating, .up, .down].map LinkState.code = [0, 1, 2, 3, 4]
    ∧ [ReportOutcome.none, .served, .refused].map ReportOutcome.code = [0, 1, 2])
  ∧ ∀ (h : Sys2Proof.Host) (s : State) (start : Byte) (copy : ControlCopy) (sent : Nat),
    (s.hosts.get h).transaction = .controlRead start copy sent →
    let p := start.toNat + sent
    let two := fun (w : Word16) => [byteOf (w.toNat / 256), byteOf w.toNat]
    let field := fun (area : List Byte) (at' : Nat) => area[p - at']?.getD 0
    let sends := fun (x : Byte) => exec (.controlReadByte h) s = .next (s.modHost h fun hs =>
      { hs with answer := .byte x, pointer := hs.pointer + 1, transaction := .controlRead start copy (sent + 1) })
    let whole := start.toNat ≤ 0x10 ∧ 0x1C ≤ start.toNat + sent
    let ended := fun (f : HostState → HostState) => exec (.controlReadEnd h) s =
      .next (s.modHost h fun hs => f { hs with transaction := .idle })
    (p ≤ 0x0D → sends (field ([copy.result.number, copy.result.address, copy.result.status.code,
        byteOf copy.result.values.length] ++ copy.result.values) 0))
    ∧ (0x10 ≤ p → p ≤ 0x1B → copy.event = none → sends 0)
    ∧ (∀ r, 0x10 ≤ p → p ≤ 0x1B → copy.event = some r →
        sends (field ([r.kind.code, r.number, r.subject, r.reason] ++ two r.value ++ two r.stamp
          ++ (match r.detail with | none => [0, 0, 0] | some (a, n) => two a ++ [n])) 0x10))
    ∧ (0x20 ≤ p → p ≤ 0x2B → sends (field ([copy.report.outcome.code, byteOf copy.report.slot.val] ++ two copy.report.first
        ++ two copy.report.bytesRead ++ two copy.report.fillBytes
        ++ [match copy.report.worst with | none => 0 | some x => x.code] ++ two copy.report.oldest
        ++ [byteOf copy.report.touched]) 0x20))
    ∧ (0x30 ≤ p → p ≤ 0x3D → copy.fetch = none → sends 0)
    ∧ (∀ f, 0x30 ≤ p → p ≤ 0x3D → copy.fetch = some f →
        sends (field ([f.ticket, f.status.code, nodeRef f.node] ++ two f.address ++ [byteOf f.length]
          ++ (if f.status = .ok then f.data else [])) 0x30))
    ∧ (0x40 ≤ p → p ≤ 0x47 → sends (field [0x1A, 0x07, 0x04, 0x08, 0x01, byteOf copy.port.val,
        copy.controlAddress.setWidth 8, byteOf copy.setupHost.val] 0x40))
    ∧ ((p = 0x0E ∨ p = 0x0F ∨ (0x1C ≤ p ∧ p ≤ 0x1F) ∨ (0x2C ≤ p ∧ p ≤ 0x2F) ∨ p = 0x3E ∨ p = 0x3F ∨ 0x48 ≤ p) → sends 0)
    ∧ ((copy.event = none ∨ ¬ whole) → ended id)
    ∧ (∀ r, copy.event = some r → whole → (r.kind ≠ .overflow ∨ (s.hosts.get h).countedApart = 0) →
        ended fun hs => { hs with events := hs.events.tail })
    ∧ (∀ r, copy.event = some r → whole → r.kind = .overflow → (s.hosts.get h).countedApart ≠ 0 →
        ended fun hs =>
          { hs with events := [{ kind := .overflow, number := hs.eventCounter + 1, subject := 0, reason := 0,
                                 value := hs.countedApart.setWidth 16, detail := none, stamp := low16 s.timeBase }],
                    eventCounter := hs.eventCounter + 1 })

/-- R45, R47, R51, R52: the end of an alias write: the reservation is returned, taken, or fails at once with its lapse reason.
(R113: the arbiters then grant.) -/
def Obligations.AliasWriteEndTakesWrite : Prop :=
  ∀ (h : Sys2Proof.Host) (s : State) (k : AliasIx) (w : AliasSlot) (phase : AliasWritePhase),
    (s.hosts.get h).transaction = .aliasWrite k w phase →
    let l := nodeLink w.node
    let idle := s.modHost h fun hs => { hs with transaction := .idle }
    let returned := idle.modWrites l fun q => { q with reserved := q.reserved.filter fun r => r.origin ≠ h }
    ((∀ r ∈ (s.writeQueues.get l).reserved, r.origin ≠ h) → exec (.aliasWriteEnd h) s = .next (grants idle))
    ∧ ∀ r, r ∈ (s.writeQueues.get l).reserved → r.origin = h →
      (∀ x ∈ (s.writeQueues.get l).reserved, x.origin = h → x = r) →
      let seq : Word16 := if (s.hosts.get h).seqCounter = 65535 then 1 else (s.hosts.get h).seqCounter + 1
      let numbered := returned.modHost h fun hs => { hs with seqCounter := seq }
      (r.data = [] → exec (.aliasWriteEnd h) s = .next (grants returned))
      ∧ (r.data ≠ [] → r.lapse = none →
          exec (.aliasWriteEnd h) s = .next (grants (numbered.modWrites l fun q =>
            { q with order := q.order ++ [{ r with seq := some seq, state := .queued }] })))
      ∧ (∀ why, r.data ≠ [] → r.lapse = some why →
          exec (.aliasWriteEnd h) s = .next (grants (finishWrite l { r with seq := some seq } why numbered)))
end

