-- ==== Sys2Proof/Laws/State.lean ====
section
/-!
SUPPORT. One lemma per field per update of State, and what the reads of Machine/Ops.lean give after each update.
-/

namespace Sys2Proof.Machine

/-! ## One place of a fixed table replaced -/

@[simp] theorem get_upd_self {α : Type} {n : Nat} (v : Vector α n) (i : Fin n) (f : α → α) :
    (upd v i f).get i = f (v.get i) := by
  simp [upd, Vector.get_eq_getElem]

@[simp] theorem get_upd_ne {α : Type} {n : Nat} (v : Vector α n) {i j : Fin n} (f : α → α) (h : j ≠ i) :
    (upd v i f).get j = v.get j := by
  have : i.val ≠ j.val := fun e => h (Fin.ext e.symm)
  simp [upd, Vector.get_eq_getElem, this]

theorem get_upd {α : Type} {n : Nat} (v : Vector α n) (i j : Fin n) (f : α → α) :
    (upd v i f).get j = if j = i then f (v.get i) else v.get j := by
  split
  · next h => subst h; simp
  · next h => simp [h]

@[simp] theorem upd_id {α : Type} {n : Nat} (v : Vector α n) (i : Fin n) : upd v i (fun x => x) = v := by
  simp [upd, Vector.get_eq_getElem]

/-- Two tables are equal when each place is. -/
theorem vector_ext_get {α : Type} {n : Nat} {v w : Vector α n} (h : ∀ i : Fin n, v.get i = w.get i) : v = w :=
  Vector.ext fun i hi => h ⟨i, hi⟩

/-! ## modHost -/

section
variable (h : Host) (f : HostState → HostState) (s : State)

@[simp] theorem State.modHost_timeBase : (s.modHost h f).timeBase = s.timeBase := rfl
@[simp] theorem State.modHost_due : (s.modHost h f).due = s.due := rfl
@[simp] theorem State.modHost_periods : (s.modHost h f).periods = s.periods := rfl
@[simp] theorem State.modHost_slots : (s.modHost h f).slots = s.slots := rfl
@[simp] theorem State.modHost_pollQueues : (s.modHost h f).pollQueues = s.pollQueues := rfl
@[simp] theorem State.modHost_writeQueues : (s.modHost h f).writeQueues = s.writeQueues := rfl
@[simp] theorem State.modHost_claims : (s.modHost h f).claims = s.claims := rfl
@[simp] theorem State.modHost_nodes : (s.modHost h f).nodes = s.nodes := rfl
@[simp] theorem State.modHost_links : (s.modHost h f).links = s.links := rfl
@[simp] theorem State.modHost_arbiters : (s.modHost h f).arbiters = s.arbiters := rfl
@[simp] theorem State.modHost_hosts : (s.modHost h f).hosts = upd s.hosts h f := rfl
@[simp] theorem State.modHost_addrSel : (s.modHost h f).addrSel = s.addrSel := rfl
@[simp] theorem State.modHost_setupSel : (s.modHost h f).setupSel = s.setupSel := rfl
@[simp] theorem State.modHost_choices : (s.modHost h f).choices = s.choices := rfl
@[simp] theorem State.modHost_pending : (s.modHost h f).pending = s.pending := rfl

end

/-! ## modSlot -/

section
variable (i : SlotIx) (f : Slot → Slot) (s : State)

@[simp] theorem State.modSlot_timeBase : (s.modSlot i f).timeBase = s.timeBase := rfl
@[simp] theorem State.modSlot_due : (s.modSlot i f).due = s.due := rfl
@[simp] theorem State.modSlot_periods : (s.modSlot i f).periods = s.periods := rfl
@[simp] theorem State.modSlot_slots : (s.modSlot i f).slots = upd s.slots i f := rfl
@[simp] theorem State.modSlot_pollQueues : (s.modSlot i f).pollQueues = s.pollQueues := rfl
@[simp] theorem State.modSlot_writeQueues : (s.modSlot i f).writeQueues = s.writeQueues := rfl
@[simp] theorem State.modSlot_claims : (s.modSlot i f).claims = s.claims := rfl
@[simp] theorem State.modSlot_nodes : (s.modSlot i f).nodes = s.nodes := rfl
@[simp] theorem State.modSlot_links : (s.modSlot i f).links = s.links := rfl
@[simp] theorem State.modSlot_arbiters : (s.modSlot i f).arbiters = s.arbiters := rfl
@[simp] theorem State.modSlot_hosts : (s.modSlot i f).hosts = s.hosts := rfl
@[simp] theorem State.modSlot_addrSel : (s.modSlot i f).addrSel = s.addrSel := rfl
@[simp] theorem State.modSlot_setupSel : (s.modSlot i f).setupSel = s.setupSel := rfl
@[simp] theorem State.modSlot_choices : (s.modSlot i f).choices = s.choices := rfl
@[simp] theorem State.modSlot_pending : (s.modSlot i f).pending = s.pending := rfl

end

/-! ## modPolls -/

section
variable (l : Link) (f : List PollItem → List PollItem) (s : State)

@[simp] theorem State.modPolls_timeBase : (s.modPolls l f).timeBase = s.timeBase := rfl
@[simp] theorem State.modPolls_due : (s.modPolls l f).due = s.due := rfl
@[simp] theorem State.modPolls_periods : (s.modPolls l f).periods = s.periods := rfl
@[simp] theorem State.modPolls_slots : (s.modPolls l f).slots = s.slots := rfl
@[simp] theorem State.modPolls_pollQueues : (s.modPolls l f).pollQueues = upd s.pollQueues l f := rfl
@[simp] theorem State.modPolls_writeQueues : (s.modPolls l f).writeQueues = s.writeQueues := rfl
@[simp] theorem State.modPolls_claims : (s.modPolls l f).claims = s.claims := rfl
@[simp] theorem State.modPolls_nodes : (s.modPolls l f).nodes = s.nodes := rfl
@[simp] theorem State.modPolls_links : (s.modPolls l f).links = s.links := rfl
@[simp] theorem State.modPolls_arbiters : (s.modPolls l f).arbiters = s.arbiters := rfl
@[simp] theorem State.modPolls_hosts : (s.modPolls l f).hosts = s.hosts := rfl
@[simp] theorem State.modPolls_addrSel : (s.modPolls l f).addrSel = s.addrSel := rfl
@[simp] theorem State.modPolls_setupSel : (s.modPolls l f).setupSel = s.setupSel := rfl
@[simp] theorem State.modPolls_choices : (s.modPolls l f).choices = s.choices := rfl
@[simp] theorem State.modPolls_pending : (s.modPolls l f).pending = s.pending := rfl

end

/-! ## modWrites -/

section
variable (l : Link) (f : WriteQueue → WriteQueue) (s : State)

@[simp] theorem State.modWrites_timeBase : (s.modWrites l f).timeBase = s.timeBase := rfl
@[simp] theorem State.modWrites_due : (s.modWrites l f).due = s.due := rfl
@[simp] theorem State.modWrites_periods : (s.modWrites l f).periods = s.periods := rfl
@[simp] theorem State.modWrites_slots : (s.modWrites l f).slots = s.slots := rfl
@[simp] theorem State.modWrites_pollQueues : (s.modWrites l f).pollQueues = s.pollQueues := rfl
@[simp] theorem State.modWrites_writeQueues : (s.modWrites l f).writeQueues = upd s.writeQueues l f := rfl
@[simp] theorem State.modWrites_claims : (s.modWrites l f).claims = s.claims := rfl
@[simp] theorem State.modWrites_nodes : (s.modWrites l f).nodes = s.nodes := rfl
@[simp] theorem State.modWrites_links : (s.modWrites l f).links = s.links := rfl
@[simp] theorem State.modWrites_arbiters : (s.modWrites l f).arbiters = s.arbiters := rfl
@[simp] theorem State.modWrites_hosts : (s.modWrites l f).hosts = s.hosts := rfl
@[simp] theorem State.modWrites_addrSel : (s.modWrites l f).addrSel = s.addrSel := rfl
@[simp] theorem State.modWrites_setupSel : (s.modWrites l f).setupSel = s.setupSel := rfl
@[simp] theorem State.modWrites_choices : (s.modWrites l f).choices = s.choices := rfl
@[simp] theorem State.modWrites_pending : (s.modWrites l f).pending = s.pending := rfl

end

/-! ## modClaim -/

section
variable (n : Node) (f : ClaimRecord → ClaimRecord) (s : State)

@[simp] theorem State.modClaim_timeBase : (s.modClaim n f).timeBase = s.timeBase := rfl
@[simp] theorem State.modClaim_due : (s.modClaim n f).due = s.due := rfl
@[simp] theorem State.modClaim_periods : (s.modClaim n f).periods = s.periods := rfl
@[simp] theorem State.modClaim_slots : (s.modClaim n f).slots = s.slots := rfl
@[simp] theorem State.modClaim_pollQueues : (s.modClaim n f).pollQueues = s.pollQueues := rfl
@[simp] theorem State.modClaim_writeQueues : (s.modClaim n f).writeQueues = s.writeQueues := rfl
@[simp] theorem State.modClaim_claims : (s.modClaim n f).claims = upd s.claims n f := rfl
@[simp] theorem State.modClaim_nodes : (s.modClaim n f).nodes = s.nodes := rfl
@[simp] theorem State.modClaim_links : (s.modClaim n f).links = s.links := rfl
@[simp] theorem State.modClaim_arbiters : (s.modClaim n f).arbiters = s.arbiters := rfl
@[simp] theorem State.modClaim_hosts : (s.modClaim n f).hosts = s.hosts := rfl
@[simp] theorem State.modClaim_addrSel : (s.modClaim n f).addrSel = s.addrSel := rfl
@[simp] theorem State.modClaim_setupSel : (s.modClaim n f).setupSel = s.setupSel := rfl
@[simp] theorem State.modClaim_choices : (s.modClaim n f).choices = s.choices := rfl
@[simp] theorem State.modClaim_pending : (s.modClaim n f).pending = s.pending := rfl

end

/-! ## modNode -/

section
variable (n : Node) (f : NodeRecord → NodeRecord) (s : State)

@[simp] theorem State.modNode_timeBase : (s.modNode n f).timeBase = s.timeBase := rfl
@[simp] theorem State.modNode_due : (s.modNode n f).due = s.due := rfl
@[simp] theorem State.modNode_periods : (s.modNode n f).periods = s.periods := rfl
@[simp] theorem State.modNode_slots : (s.modNode n f).slots = s.slots := rfl
@[simp] theorem State.modNode_pollQueues : (s.modNode n f).pollQueues = s.pollQueues := rfl
@[simp] theorem State.modNode_writeQueues : (s.modNode n f).writeQueues = s.writeQueues := rfl
@[simp] theorem State.modNode_claims : (s.modNode n f).claims = s.claims := rfl
@[simp] theorem State.modNode_nodes : (s.modNode n f).nodes = upd s.nodes n f := rfl
@[simp] theorem State.modNode_links : (s.modNode n f).links = s.links := rfl
@[simp] theorem State.modNode_arbiters : (s.modNode n f).arbiters = s.arbiters := rfl
@[simp] theorem State.modNode_hosts : (s.modNode n f).hosts = s.hosts := rfl
@[simp] theorem State.modNode_addrSel : (s.modNode n f).addrSel = s.addrSel := rfl
@[simp] theorem State.modNode_setupSel : (s.modNode n f).setupSel = s.setupSel := rfl
@[simp] theorem State.modNode_choices : (s.modNode n f).choices = s.choices := rfl
@[simp] theorem State.modNode_pending : (s.modNode n f).pending = s.pending := rfl

end

/-! ## modLink -/

section
variable (l : Link) (f : LinkRecord → LinkRecord) (s : State)

@[simp] theorem State.modLink_timeBase : (s.modLink l f).timeBase = s.timeBase := rfl
@[simp] theorem State.modLink_due : (s.modLink l f).due = s.due := rfl
@[simp] theorem State.modLink_periods : (s.modLink l f).periods = s.periods := rfl
@[simp] theorem State.modLink_slots : (s.modLink l f).slots = s.slots := rfl
@[simp] theorem State.modLink_pollQueues : (s.modLink l f).pollQueues = s.pollQueues := rfl
@[simp] theorem State.modLink_writeQueues : (s.modLink l f).writeQueues = s.writeQueues := rfl
@[simp] theorem State.modLink_claims : (s.modLink l f).claims = s.claims := rfl
@[simp] theorem State.modLink_nodes : (s.modLink l f).nodes = s.nodes := rfl
@[simp] theorem State.modLink_links : (s.modLink l f).links = upd s.links l f := rfl
@[simp] theorem State.modLink_arbiters : (s.modLink l f).arbiters = s.arbiters := rfl
@[simp] theorem State.modLink_hosts : (s.modLink l f).hosts = s.hosts := rfl
@[simp] theorem State.modLink_addrSel : (s.modLink l f).addrSel = s.addrSel := rfl
@[simp] theorem State.modLink_setupSel : (s.modLink l f).setupSel = s.setupSel := rfl
@[simp] theorem State.modLink_choices : (s.modLink l f).choices = s.choices := rfl
@[simp] theorem State.modLink_pending : (s.modLink l f).pending = s.pending := rfl

end

/-! ## modArbiter -/

section
variable (l : Link) (f : Arbiter → Arbiter) (s : State)

@[simp] theorem State.modArbiter_timeBase : (s.modArbiter l f).timeBase = s.timeBase := rfl
@[simp] theorem State.modArbiter_due : (s.modArbiter l f).due = s.due := rfl
@[simp] theorem State.modArbiter_periods : (s.modArbiter l f).periods = s.periods := rfl
@[simp] theorem State.modArbiter_slots : (s.modArbiter l f).slots = s.slots := rfl
@[simp] theorem State.modArbiter_pollQueues : (s.modArbiter l f).pollQueues = s.pollQueues := rfl
@[simp] theorem State.modArbiter_writeQueues : (s.modArbiter l f).writeQueues = s.writeQueues := rfl
@[simp] theorem State.modArbiter_claims : (s.modArbiter l f).claims = s.claims := rfl
@[simp] theorem State.modArbiter_nodes : (s.modArbiter l f).nodes = s.nodes := rfl
@[simp] theorem State.modArbiter_links : (s.modArbiter l f).links = s.links := rfl
@[simp] theorem State.modArbiter_arbiters : (s.modArbiter l f).arbiters = upd s.arbiters l f := rfl
@[simp] theorem State.modArbiter_hosts : (s.modArbiter l f).hosts = s.hosts := rfl
@[simp] theorem State.modArbiter_addrSel : (s.modArbiter l f).addrSel = s.addrSel := rfl
@[simp] theorem State.modArbiter_setupSel : (s.modArbiter l f).setupSel = s.setupSel := rfl
@[simp] theorem State.modArbiter_choices : (s.modArbiter l f).choices = s.choices := rfl
@[simp] theorem State.modArbiter_pending : (s.modArbiter l f).pending = s.pending := rfl

end

/-! ## modEntry -/

section
variable (i : SlotIx) (f : Entry → Entry) (s : State)

@[simp] theorem State.modEntry_timeBase : (s.modEntry i f).timeBase = s.timeBase := rfl
@[simp] theorem State.modEntry_due : (s.modEntry i f).due = s.due := rfl
@[simp] theorem State.modEntry_periods : (s.modEntry i f).periods = s.periods := rfl
@[simp] theorem State.modEntry_slots : (s.modEntry i f).slots = upd s.slots i fun sl => { sl with entry := sl.entry.map f } := rfl
@[simp] theorem State.modEntry_pollQueues : (s.modEntry i f).pollQueues = s.pollQueues := rfl
@[simp] theorem State.modEntry_writeQueues : (s.modEntry i f).writeQueues = s.writeQueues := rfl
@[simp] theorem State.modEntry_claims : (s.modEntry i f).claims = s.claims := rfl
@[simp] theorem State.modEntry_nodes : (s.modEntry i f).nodes = s.nodes := rfl
@[simp] theorem State.modEntry_links : (s.modEntry i f).links = s.links := rfl
@[simp] theorem State.modEntry_arbiters : (s.modEntry i f).arbiters = s.arbiters := rfl
@[simp] theorem State.modEntry_hosts : (s.modEntry i f).hosts = s.hosts := rfl
@[simp] theorem State.modEntry_addrSel : (s.modEntry i f).addrSel = s.addrSel := rfl
@[simp] theorem State.modEntry_setupSel : (s.modEntry i f).setupSel = s.setupSel := rfl
@[simp] theorem State.modEntry_choices : (s.modEntry i f).choices = s.choices := rfl
@[simp] theorem State.modEntry_pending : (s.modEntry i f).pending = s.pending := rfl

end

/-! ## withResult -/

section
variable (h : Host) (a : Byte) (st : Status) (vs : List Byte) (s : State)

@[simp] theorem State.withResult_timeBase : (s.withResult h a st vs).timeBase = s.timeBase := rfl
@[simp] theorem State.withResult_due : (s.withResult h a st vs).due = s.due := rfl
@[simp] theorem State.withResult_periods : (s.withResult h a st vs).periods = s.periods := rfl
@[simp] theorem State.withResult_slots : (s.withResult h a st vs).slots = s.slots := rfl
@[simp] theorem State.withResult_pollQueues : (s.withResult h a st vs).pollQueues = s.pollQueues := rfl
@[simp] theorem State.withResult_writeQueues : (s.withResult h a st vs).writeQueues = s.writeQueues := rfl
@[simp] theorem State.withResult_claims : (s.withResult h a st vs).claims = s.claims := rfl
@[simp] theorem State.withResult_nodes : (s.withResult h a st vs).nodes = s.nodes := rfl
@[simp] theorem State.withResult_links : (s.withResult h a st vs).links = s.links := rfl
@[simp] theorem State.withResult_arbiters : (s.withResult h a st vs).arbiters = s.arbiters := rfl
@[simp] theorem State.withResult_hosts : (s.withResult h a st vs).hosts =
    upd s.hosts h fun hs => { hs with result := ⟨incSkipZero hs.result.number, a, st, vs⟩ } := rfl
@[simp] theorem State.withResult_addrSel : (s.withResult h a st vs).addrSel = s.addrSel := rfl
@[simp] theorem State.withResult_setupSel : (s.withResult h a st vs).setupSel = s.setupSel := rfl
@[simp] theorem State.withResult_choices : (s.withResult h a st vs).choices = s.choices := rfl
@[simp] theorem State.withResult_pending : (s.withResult h a st vs).pending = s.pending := rfl

end

/-! ## The reads -/

section
variable (s : State)

theorem State.modEntry_entry (i j : SlotIx) (f : Entry → Entry) :
    (s.modEntry i f).entry j = if j = i then (s.entry i).map f else s.entry j := by
  simp only [State.entry, State.modEntry_slots, get_upd]; split <;> rfl

@[simp] theorem State.modEntry_entry_self (i : SlotIx) (f : Entry → Entry) :
    (s.modEntry i f).entry i = (s.entry i).map f := by simp [State.modEntry_entry]

@[simp] theorem State.modEntry_entry_ne {i j : SlotIx} (f : Entry → Entry) (h : j ≠ i) :
    (s.modEntry i f).entry j = s.entry j := by simp [State.modEntry_entry, h]

theorem State.modEntry_generation (i j : SlotIx) (f : Entry → Entry) :
    ((s.modEntry i f).slots.get j).generation = (s.slots.get j).generation := by
  simp only [State.modEntry_slots, get_upd]; split <;> simp_all

theorem State.modNode_presence (n m : Node) (f : NodeRecord → NodeRecord) :
    (s.modNode n f).presence m = if m = n then (f (s.nodes.get n)).presence else s.presence m := by
  simp only [State.presence, State.modNode_nodes, get_upd]; split <;> rfl

theorem State.modLink_linkState (l m : Link) (f : LinkRecord → LinkRecord) :
    (s.modLink l f).linkState m = if m = l then (f (s.links.get l)).state else s.linkState m := by
  simp only [State.linkState, State.modLink_links, get_upd]; split <;> rfl

theorem State.modArbiter_request (l m : Link) (t : Tag) (f : Arbiter → Arbiter) :
    (s.modArbiter l f).request m t = if m = l then ((f (s.arbiters.get l)).tags.get t).request else s.request m t := by
  simp only [State.request, State.modArbiter_arbiters, get_upd]; split <;> rfl

@[simp] theorem State.modHost_entry' (h : Host) (f : HostState → HostState) (i : SlotIx) :
    (s.modHost h f).entry i = s.entry i := rfl
@[simp] theorem State.modHost_linkState' (h : Host) (f : HostState → HostState) (l : Link) :
    (s.modHost h f).linkState l = s.linkState l := rfl
@[simp] theorem State.modHost_presence' (h : Host) (f : HostState → HostState) (n : Node) :
    (s.modHost h f).presence n = s.presence n := rfl
@[simp] theorem State.modHost_request' (h : Host) (f : HostState → HostState) (l : Link) (t : Tag) :
    (s.modHost h f).request l t = s.request l t := rfl
@[simp] theorem State.modSlot_linkState' (k : SlotIx) (f : Slot → Slot) (l : Link) :
    (s.modSlot k f).linkState l = s.linkState l := rfl
@[simp] theorem State.modSlot_presence' (k : SlotIx) (f : Slot → Slot) (n : Node) :
    (s.modSlot k f).presence n = s.presence n := rfl
@[simp] theorem State.modSlot_request' (k : SlotIx) (f : Slot → Slot) (l : Link) (t : Tag) :
    (s.modSlot k f).request l t = s.request l t := rfl
@[simp] theorem State.modEntry_linkState' (k : SlotIx) (f : Entry → Entry) (l : Link) :
    (s.modEntry k f).linkState l = s.linkState l := rfl
@[simp] theorem State.modEntry_presence' (k : SlotIx) (f : Entry → Entry) (n : Node) :
    (s.modEntry k f).presence n = s.presence n := rfl
@[simp] theorem State.modEntry_request' (k : SlotIx) (f : Entry → Entry) (l : Link) (t : Tag) :
    (s.modEntry k f).request l t = s.request l t := rfl
@[simp] theorem State.modPolls_entry' (k : Link) (f : List PollItem → List PollItem) (i : SlotIx) :
    (s.modPolls k f).entry i = s.entry i := rfl
@[simp] theorem State.modPolls_linkState' (k : Link) (f : List PollItem → List PollItem) (l : Link) :
    (s.modPolls k f).linkState l = s.linkState l := rfl
@[simp] theorem State.modPolls_presence' (k : Link) (f : List PollItem → List PollItem) (n : Node) :
    (s.modPolls k f).presence n = s.presence n := rfl
@[simp] theorem State.modPolls_request' (k : Link) (f : List PollItem → List PollItem) (l : Link) (t : Tag) :
    (s.modPolls k f).request l t = s.request l t := rfl
@[simp] theorem State.modWrites_entry' (k : Link) (f : WriteQueue → WriteQueue) (i : SlotIx) :
    (s.modWrites k f).entry i = s.entry i := rfl
@[simp] theorem State.modWrites_linkState' (k : Link) (f : WriteQueue → WriteQueue) (l : Link) :
    (s.modWrites k f).linkState l = s.linkState l := rfl
@[simp] theorem State.modWrites_presence' (k : Link) (f : WriteQueue → WriteQueue) (n : Node) :
    (s.modWrites k f).presence n = s.presence n := rfl
@[simp] theorem State.modWrites_request' (k : Link) (f : WriteQueue → WriteQueue) (l : Link) (t : Tag) :
    (s.modWrites k f).request l t = s.request l t := rfl
@[simp] theorem State.modClaim_entry' (k : Node) (f : ClaimRecord → ClaimRecord) (i : SlotIx) :
    (s.modClaim k f).entry i = s.entry i := rfl
@[simp] theorem State.modClaim_linkState' (k : Node) (f : ClaimRecord → ClaimRecord) (l : Link) :
    (s.modClaim k f).linkState l = s.linkState l := rfl
@[simp] theorem State.modClaim_presence' (k : Node) (f : ClaimRecord → ClaimRecord) (n : Node) :
    (s.modClaim k f).presence n = s.presence n := rfl
@[simp] theorem State.modClaim_request' (k : Node) (f : ClaimRecord → ClaimRecord) (l : Link) (t : Tag) :
    (s.modClaim k f).request l t = s.request l t := rfl
@[simp] theorem State.modNode_entry' (k : Node) (f : NodeRecord → NodeRecord) (i : SlotIx) :
    (s.modNode k f).entry i = s.entry i := rfl
@[simp] theorem State.modNode_linkState' (k : Node) (f : NodeRecord → NodeRecord) (l : Link) :
    (s.modNode k f).linkState l = s.linkState l := rfl
@[simp] theorem State.modNode_request' (k : Node) (f : NodeRecord → NodeRecord) (l : Link) (t : Tag) :
    (s.modNode k f).request l t = s.request l t := rfl
@[simp] theorem State.modLink_entry' (k : Link) (f : LinkRecord → LinkRecord) (i : SlotIx) :
    (s.modLink k f).entry i = s.entry i := rfl
@[simp] theorem State.modLink_presence' (k : Link) (f : LinkRecord → LinkRecord) (n : Node) :
    (s.modLink k f).presence n = s.presence n := rfl
@[simp] theorem State.modLink_request' (k : Link) (f : LinkRecord → LinkRecord) (l : Link) (t : Tag) :
    (s.modLink k f).request l t = s.request l t := rfl
@[simp] theorem State.modArbiter_entry' (k : Link) (f : Arbiter → Arbiter) (i : SlotIx) :
    (s.modArbiter k f).entry i = s.entry i := rfl
@[simp] theorem State.modArbiter_linkState' (k : Link) (f : Arbiter → Arbiter) (l : Link) :
    (s.modArbiter k f).linkState l = s.linkState l := rfl
@[simp] theorem State.modArbiter_presence' (k : Link) (f : Arbiter → Arbiter) (n : Node) :
    (s.modArbiter k f).presence n = s.presence n := rfl

end

end Sys2Proof.Machine
end

