-- ==== Sys2Proof/Laws/Operations.lean ====
section
/-!
SUPPORT. What each shared operation can do, said once: if it is applied, then one of the named outcomes holds. The frames of these
operations are in Laws/Reads.lean.
-/

namespace Sys2Proof.Machine

/-! ## Counts and bytes -/

theorem satInc_toNat {w : Nat} (x : BitVec w) : (satInc x).toNat = min (x.toNat + 1) (2 ^ w - 1) := by
  have hx := x.isLt
  unfold satInc
  split
  · next h => subst h; simp
  · next h =>
    have : x.toNat ≠ 2 ^ w - 1 := fun e => h (BitVec.eq_of_toNat_eq (by simp [e]))
    rw [BitVec.toNat_add]
    have h1 : (1 : BitVec w).toNat = 1 % 2 ^ w := BitVec.toNat_ofNat ..
    rcases Nat.lt_or_ge 1 (2 ^ w) with hw | hw
    · rw [h1, Nat.mod_eq_of_lt hw, Nat.mod_eq_of_lt (by omega)]; omega
    · omega

theorem bytes16_eq (w : Word16) : bytes16 w = [byteOf (w.toNat / 256), byteOf w.toNat] := by
  have h1 : w.extractLsb' 8 8 = byteOf (w.toNat / 256) := by
    apply BitVec.eq_of_toNat_eq; simp [byteOf, Nat.shiftRight_eq_div_pow]
  have h2 : w.extractLsb' 0 8 = byteOf w.toNat := by
    apply BitVec.eq_of_toNat_eq; simp [byteOf]
  simp [bytes16, h1, h2]

theorem word16_toNat (hi lo : Byte) : (word16 hi lo).toNat = 256 * hi.toNat + lo.toNat := by
  have := lo.isLt
  simp only [word16, BitVec.toNat_append, Nat.shiftLeft_eq]
  rw [← Nat.shiftLeft_eq, ← Nat.shiftLeft_add_eq_or_of_lt this, Nat.shiftLeft_eq]; omega

theorem nodeOfRef_nodeRef (n : Node) : nodeOfRef (nodeRef n) = some n := by revert n; decide

theorem nodeRef_of_nodeOfRef : ∀ (b : Byte) (n : Node), nodeOfRef b = some n → b = nodeRef n := by decide +kernel

/-! ## Events -/

/-- R160: the four things an arriving event can do. -/
theorem receive_cases (stamp : Word16) (b : EventBody) (hs : HostState) :
    (maskedBy hs.mask b.kind = true ∧ hs.receive stamp b = hs)
    ∨ (hs.events.any EventRecord.isOverflow = true ∧ ∃ n, hs.receive stamp b =
        { hs with events := hs.events.map fun r => if r.isOverflow then countInto r else r, countedApart := n })
    ∨ (hs.events.any EventRecord.isOverflow = false ∧ hs.events.length < 15 ∧ hs.receive stamp b =
        { hs with events := hs.events ++ [b.record (hs.eventCounter + 1) stamp], eventCounter := hs.eventCounter + 1 })
    ∨ (hs.events.any EventRecord.isOverflow = false ∧ 15 ≤ hs.events.length ∧ hs.receive stamp b =
        { hs with events := hs.events ++ [overflowRecord 1 (hs.eventCounter + 1) stamp],
                  eventCounter := hs.eventCounter + 1 }) := by
  unfold HostState.receive
  split
  · next h => exact .inl ⟨h, rfl⟩
  · split
    · next h => exact .inr (.inl ⟨h, _, rfl⟩)
    · next h =>
      have h := by simpa using h
      split
      · next hl => exact .inr (.inr (.inl ⟨by simpa using h, hl, rfl⟩))
      · next hl => exact .inr (.inr (.inr ⟨by simpa using h, by omega, rfl⟩))

theorem notify_hosts (h g : Host) (b : EventBody) (s : State) :
    (notify h b s).hosts.get g =
      if g = h then (s.hosts.get h).receive (low16 s.timeBase) b else s.hosts.get g := by
  simp [notify, get_upd]

/-! ## The Mirror Table -/

/-- R8, R36: a poll is queued, or nothing is done. -/
theorem queuePoll_cases (i : SlotIx) (s : State) :
    queuePoll i s = s ∨ ∃ e, s.entry i = some e ∧ e.phase = .idle ∧ e.pollable = true ∧
      queuePoll i s =
        (s.modPolls (nodeLink e.node) (· ++ [{ slot := i, generation := (s.slots.get i).generation }])).modEntry i
          fun e => { e with phase := .queued } := by
  unfold queuePoll
  split
  · exact .inl rfl
  · next e he =>
    split
    · next h =>
      simp only [Bool.and_eq_true, decide_eq_true_eq] at h
      exact .inr ⟨e, he, h.1, h.2, rfl⟩
    · exact .inl rfl

/-- R41, R42: an entry past its limit becomes STALE, with ENTRY_STALE, or nothing is done. -/
theorem meetLimit_cases (i : SlotIx) (s : State) :
    (meetLimit i s = s ∧ ∀ e ∈ s.entry i, s.pastLimit e = false) ∨
      ∃ e, s.entry i = some e ∧ s.pastLimit e = true ∧
        meetLimit i s = entryEvent i .entryStale .none (s.modEntry i fun e => { e with state := .stale }) := by
  unfold meetLimit
  split
  · next h => exact .inl ⟨rfl, by simp [h]⟩
  · next e he =>
    split
    · next h => exact .inr ⟨e, he, h, rfl⟩
    · next h => exact .inl ⟨rfl, by simpa [he] using h⟩

/-- R6: the class kept from a list is the better of it and the best so far, by the shorter period and then the lower number. -/
theorem fasterClass_some (periods : Vector Word16 4) (b c : Fin 4) :
    fasterClass periods (some b) c = some b ∨ (fasterClass periods (some b) c = some c
      ∧ (periods.get c < periods.get b ∨ (periods.get c = periods.get b ∧ c < b))) := by
  unfold fasterClass
  dsimp only
  split
  · next h => exact .inr ⟨rfl, h⟩
  · exact .inl rfl

/-- R27: an entry event changes nothing but the holders' queues. -/
theorem entryEvent_slots (i : SlotIx) (k : EventKind) (why : Reason) (s : State) :
    (entryEvent i k why s).slots = s.slots := by
  have key : ∀ (hs : List Host) (s : State), (hs.foldl (fun s h => match s.entry i with
      | none => s
      | some e => if e.heldBy h then notify h (eventOf k (byteOf i.val) why.code 0) s else s) s).slots = s.slots := by
    intro hs
    induction hs with
    | nil => intro s; rfl
    | cons h hs ih =>
      intro s
      rw [List.foldl_cons, ih]
      repeat' split
      all_goals rfl
  exact key _ s

/-! ## The Claim Unit -/

/-- R68: the holder leaves, and the head waiter, if any, is granted with CLAIM_GRANTED. -/
theorem releaseClaim_cases (n : Node) (s : State) :
    ((s.claims.get n).waiters = [] ∧ releaseClaim n s = s.modClaim n fun c => { c with holder := none }) ∨
      ∃ w rest, (s.claims.get n).waiters = w :: rest ∧
        (releaseClaim n s).claims.get n =
          { holder := some { host := w.host, lease := w.lease, leaseEnd := leaseEndAt s.timeBase w.lease },
            waiters := rest } := by
  unfold releaseClaim
  split
  · next h => exact .inl ⟨h, rfl⟩
  · next w rest h => exact .inr ⟨w, rest, h, by simp [notify, startLease]⟩

/-! ## The write queues -/

/-- R53: the record a queue offers is QUEUED, in the order, and its node has no OUTSTANDING record. -/
theorem offered_some {q : WriteQueue} {r : WriteRecord} (h : q.offered = some r) :
    r ∈ q.order ∧ r.state = .queued ∧ ∀ x ∈ q.order, x.node = r.node → x.state ≠ .outstanding := by
  unfold WriteQueue.offered at h
  have hm := List.mem_of_find?_eq_some h
  have hp := List.find?_some h
  simp at hp
  exact ⟨hm, hp.1, hp.2⟩

/-- R53: the record a WRITE request carries is the OUTSTANDING one of its node. -/
theorem outstanding_some {q : WriteQueue} {n : Node} {r : WriteRecord} (h : q.outstanding n = some r) :
    r ∈ q.order ∧ r.node = n ∧ r.state = .outstanding := by
  unfold WriteQueue.outstanding at h
  have hp := List.find?_some h
  simp at hp
  exact ⟨List.mem_of_find?_eq_some h, hp⟩

/-- R55, R56: a record that has ended is no longer in its queue. -/
theorem finishWrite_order (l : Link) (r : WriteRecord) (o : Reason) (s : State)
    (h : ∀ t : State, ((if decide (o = .ok) then mirrorWriteOk r.node r.address r.data t
      else mirrorWriteFailed r.node r.address r.data.length t).writeQueues = t.writeQueues)) :
    ((finishWrite l r o s).writeQueues.get l).order =
      (s.writeQueues.get l).order.erase r := by
  have hd : ∀ (h : Host) (t : State), (completeDrain h t).writeQueues = t.writeQueues := fun h t => by
    unfold completeDrain; repeat' split
    all_goals rfl
  have hs := h s
  unfold finishWrite
  simp only
  repeat' split
  all_goals simp_all [notify, countDrainFailure]

/-! ## Granting -/

/-- R113: the tag taken is free, and every lower one is in use. -/
theorem lowestFree_some {a : Arbiter} {t : Tag} (h : a.lowestFree = some t) :
    (a.tags.get t).request = none ∧ ∀ u < t, (a.tags.get u).request ≠ none := by
  unfold Arbiter.lowestFree at h
  rw [List.find?_eq_some_iff_getElem] at h
  obtain ⟨hf, i, hi, he, hlt⟩ := h
  refine ⟨by simpa [Arbiter.isFree] using hf, fun u hu => ?_⟩
  have hi' : i = t.val := by have := congrArg Fin.val he; simpa using this
  have := hlt u.val (by rw [hi']; exact hu)
  simpa [Arbiter.isFree, Option.isSome_iff_ne_none] using this

/-- R113, R114: what one grant can be. -/
theorem grantOne_cases (l : Link) (s : State) :
    grantOne l s = s ∨ ∃ t, (s.arbiters.get l).lowestFree = some t ∧
      ((s.writeEligible l = true ∧ grantOne l s = serveWrite l t s)
        ∨ (s.readEligible l = true ∧ grantOne l s = serveRead l t s)) := by
  unfold grantOne
  split
  · exact .inl rfl
  · next t ht =>
    split
    · next h =>
      simp only [Bool.and_eq_true] at h
      exact .inr ⟨t, ht, .inl ⟨h.1, rfl⟩⟩
    · split
      · next h => exact .inr ⟨t, ht, .inr ⟨h, rfl⟩⟩
      · exact .inl rfl

/-! ## Sending and receiving -/

/-- R112, R116, R120, R130: sending, resending and host clearing leave what a request is for and whom it goes to. -/
@[simp] theorem Request.copySent_kind (r : Request) (k : LinkRecord) : (r.copySent k).kind = r.kind := rfl
@[simp] theorem Request.copySent_node (r : Request) (k : LinkRecord) : (r.copySent k).node = r.node := rfl
@[simp] theorem Request.copySent_address (r : Request) (k : LinkRecord) : (r.copySent k).address = r.address := rfl
@[simp] theorem Request.copySent_length (r : Request) (k : LinkRecord) : (r.copySent k).length = r.length := rfl
@[simp] theorem Request.resent_kind (r : Request) : r.resent.kind = r.kind := rfl
@[simp] theorem Request.resent_node (r : Request) : r.resent.node = r.node := rfl
@[simp] theorem Request.resent_address (r : Request) : r.resent.address = r.address := rfl
@[simp] theorem Request.resent_length (r : Request) : r.resent.length = r.length := rfl
@[simp] theorem Request.unreport_node (h : Host) (r : Request) : (r.unreport h).node = r.node := by
  unfold Request.unreport; split <;> rfl
@[simp] theorem Request.unreport_address (h : Host) (r : Request) : (r.unreport h).address = r.address := by
  unfold Request.unreport; split <;> rfl
@[simp] theorem Request.unreport_length (h : Host) (r : Request) : (r.unreport h).length = r.length := by
  unfold Request.unreport; split <;> rfl

/-- R116: the REQUEST frame that was to be sent next leaves the line or the transmitter's order, or there was none. -/
theorem requestSent_cases (l : Link) (s : State) :
    (∃ bytes, (s.arbiters.get l).onLine = some bytes ∧ requestSent l s = s.modArbiter l fun a => { a with onLine := none })
    ∨ ((s.arbiters.get l).onLine = none ∧ (s.arbiters.get l).txOrder = [] ∧ requestSent l s = s)
    ∨ ∃ t rest, (s.arbiters.get l).onLine = none ∧ (s.arbiters.get l).txOrder = t :: rest ∧ requestSent l s =
        s.modArbiter l fun a =>
          { (a.modTag t fun tr => { tr with request := tr.request.map fun r => r.copySent (s.links.get l) }) with
            txOrder := rest } := by
  unfold requestSent
  split
  · next b h => exact .inl ⟨_, h, rfl⟩
  · next h1 h2 => exact .inr (.inl ⟨h1, h2, rfl⟩)
  · next t rest h1 h2 => exact .inr (.inr ⟨t, rest, h1, h2, rfl⟩)

/-- R97, R116: the last byte of a frame is sent: on a quiet line nothing, in TRAINING a SYNC frame, else the REQUEST frame that
was to be sent next, or a SYNC frame where there was none. -/
theorem copySent_cases (l : Link) (s : State) :
    ((s.linkState l).running = false ∧ s.transmits l = none ∧ copySent l s = s)
    ∨ (s.linkState l = .training ∧ s.transmits l = some syncFrameBytes
        ∧ copySent l s = s.modArbiter l fun a => { a with sentFrame := syncFrameBytes })
    ∨ ((s.linkState l = .enumerating ∨ s.linkState l = .up)
        ∧ s.transmits l = some ((s.requestToSend l).getD syncFrameBytes)
        ∧ copySent l s = (requestSent l s).modArbiter l fun a =>
            { a with sentFrame := (s.requestToSend l).getD syncFrameBytes }) := by
  cases h : s.linkState l <;> simp [copySent, State.transmits, h, LinkState.running]

/-- R97: what may become of a copy whose request ends: nothing where another frame is on the line or ahead of it, else the
free choice, by which its bytes are on the line or not. -/
theorem keepBegun_cases (l : Link) (t : Tag) (r : Request) (s : State) :
    ((s.arbiters.get l).mayHaveBegun t = false ∧ keepBegun l t r s = s)
    ∨ ((s.arbiters.get l).mayHaveBegun t = true ∧
        (keepBegun l t r s = { s with choices := s.choices + 1 }
          ∨ keepBegun l t r s = ({ s with choices := s.choices + 1 } : State).modArbiter l fun a =>
              { a with onLine := some (s.copyBytes l t r) })) := by
  unfold keepBegun
  split
  · next h =>
    refine .inr ⟨h, ?_⟩
    simp only
    split
    · exact .inr rfl
    · exact .inl rfl
  · next h => exact .inl ⟨by simpa using h, rfl⟩

/-- R97, R123: of requests that end together, none was next to be sent, or the one that was is kept as `keepBegun` says. -/
theorem keepBegunOf_cases (l : Link) (p : Request → Bool) (s : State) :
    keepBegunOf l p s = s
    ∨ ∃ t rest r, (s.arbiters.get l).txOrder = t :: rest ∧ s.request l t = some r ∧ p r = true
        ∧ keepBegunOf l p s = keepBegun l t r s := by
  unfold keepBegunOf
  split
  · exact .inl rfl
  · next t rest h =>
    split
    · exact .inl rfl
    · next r hr =>
      split
      · next hp => exact .inr ⟨t, rest, r, h, hr, hp, rfl⟩
      · exact .inl rfl

/-- R98, R173: received bytes are ignored out of service, and else the next frame is judged and taken, and the rest kept. -/
theorem takeLine_cases (l : Link) (bytes : List Byte) (s : State) :
    ((s.linkState l).running = false ∧ takeLine l bytes s = s)
    ∨ ((s.linkState l).running = true ∧ ∃ f beyond, receiveFrame l ((s.links.get l).received ++ bytes) = (f, beyond)
        ∧ takeLine l bytes s = takeReceived l f (s.modLink l fun k => { k with received := beyond })) := by
  unfold takeLine
  split
  · next h => exact .inl ⟨by simpa using h, rfl⟩
  · next h => exact .inr ⟨by simpa using h, _, _, rfl, rfl⟩

/-! ## Commands -/

theorem commandAt_address (c : Command) : commandAt c.address = some c := by cases c <;> decide

/-- R150 to R154: a taken command is answered against the state in which it is judged. -/
theorem takeCommand_eq (c : Command) (h : Host) (ps : List Byte) (s : State) (hp : ps ≠ []) :
    takeCommand c h ps s =
      let r := c.answer h ps (s.judged c h ps)
      r.state.withResult h c.address r.status r.values := by
  have : ps.isEmpty = false := by simpa using hp
  simp [takeCommand, runCommand, placeResult, State.judged, this]

/-- R152, R153: what the checks before the owner leave. -/
theorem answer_cases (c : Command) (h : Host) (ps : List Byte) (s : State) :
    (ps.length ≠ c.byteCount ∧ c.answer h ps s = refuse .badParam s)
    ∨ (ps.length = c.byteCount ∧ c.setupOnly = true ∧ h ≠ s.setupHost ∧ c.answer h ps s = refuse .notPermitted s)
    ∨ (ps.length = c.byteCount ∧ (c.setupOnly = true → h = s.setupHost) ∧ c.answer h ps s = c.owner h ps s) := by
  unfold Command.answer
  split
  · next h => exact .inl ⟨h, rfl⟩
  · next hl =>
    split
    · next hp =>
      simp only [Bool.and_eq_true, decide_eq_true_eq] at hp
      exact .inr (.inl ⟨by simpa using hl, hp.1, hp.2, rfl⟩)
    · next hp =>
      refine .inr (.inr ⟨by simpa using hl, fun h1 => ?_, rfl⟩)
      simpa [h1] using hp

end Sys2Proof.Machine
end

