-- ==== Sys2Proof/Laws/Reads.lean ====
section
/-!
SUPPORT. The frame of every shared operation, once for each: a read `g` of the state that the updates the operation is made of
do not change is not changed by the operation. With `g` a field, the hypotheses are true by rfl.
-/

namespace Sys2Proof.Machine

variable {α : Type}

/-! ## What a read ignores -/

/-- `g` does not read the records kept for the hosts. -/
abbrev IgnoresHosts (g : State → α) : Prop := ∀ h f s, g (State.modHost h f s) = g s
/-- `g` does not read the Mirror Table. -/
abbrev IgnoresSlots (g : State → α) : Prop := ∀ i f s, g (State.modSlot i f s) = g s
/-- `g` does not read the poll queues. -/
abbrev IgnoresPolls (g : State → α) : Prop := ∀ l f s, g (State.modPolls l f s) = g s
/-- `g` does not read the write queues. -/
abbrev IgnoresWrites (g : State → α) : Prop := ∀ l f s, g (State.modWrites l f s) = g s
/-- `g` does not read the claim records. -/
abbrev IgnoresClaims (g : State → α) : Prop := ∀ n f s, g (State.modClaim n f s) = g s
/-- `g` does not read the node records. -/
abbrev IgnoresNodes (g : State → α) : Prop := ∀ n f s, g (State.modNode n f s) = g s
/-- `g` does not read the link records. -/
abbrev IgnoresLinks (g : State → α) : Prop := ∀ l f s, g (State.modLink l f s) = g s
/-- `g` does not read the arbiters. -/
abbrev IgnoresArbiters (g : State → α) : Prop := ∀ l f s, g (State.modArbiter l f s) = g s
/-- `g` does not read the counter of free order choices. -/
abbrev IgnoresChoices (g : State → α) : Prop := ∀ n s, g { s with choices := n } = g s
/-- `g` does not read which parts of the millisecond event are open. -/
abbrev IgnoresDue (g : State → α) : Prop := ∀ d s, g { s with due := d } = g s

variable {g : State → α}

/-! ## Orders and folds -/

theorem foldl_read {β : Type} (f : State → β → State) (hf : ∀ s b, g (f s b) = g s) (l : List β) (s : State) :
    g (l.foldl f s) = g s := by
  induction l generalizing s with
  | nil => rfl
  | cons b l ih => rw [List.foldl_cons, ih, hf]

theorem forHosts_read (f : Host → State → State) (hf : ∀ h s, g (f h s) = g s) (s : State) : g (forHosts f s) = g s :=
  foldl_read _ (fun s h => hf h s) _ s

theorem forSlots_read (f : SlotIx → State → State) (hf : ∀ i s, g (f i s) = g s) (s : State) :
    g (forSlots f s) = g s :=
  foldl_read _ (fun s i => hf i s) _ s

theorem forTags_read (f : Tag → State → State) (hf : ∀ t s, g (f t s) = g s) (s : State) : g (forTags f s) = g s :=
  foldl_read _ (fun s t => hf t s) _ s

theorem forNodes_read (f : Node → State → State) (hf : ∀ n s, g (f n s) = g s) (s : State) : g (forNodes f s) = g s :=
  foldl_read _ (fun s n => hf n s) _ s

theorem forEntries_read (p : Entry → Bool) (f : SlotIx → State → State) (hf : ∀ i s, g (f i s) = g s) (s : State) :
    g (forEntries p f s) = g s := by
  refine forSlots_read _ (fun i s => ?_) s
  split
  · rfl
  · split
    · exact hf i s
    · rfl

theorem eitherOrder_read (hC : IgnoresChoices g) (b : Bool) (f k : State → State) (hf : ∀ s, g (f s) = g s)
    (hk : ∀ s, g (k s) = g s) (s : State) : g (eitherOrder b f k s) = g s := by
  unfold eitherOrder
  simp only
  split
  · split <;> simp [hf, hk, hC]
  · simp [hf, hk]

/-- Either order of two owners is one of the two orders. -/
theorem eitherOrder_cases (b : Bool) (f k : State → State) (s : State) :
    ∃ n, eitherOrder b f k s = k (f { s with choices := n }) ∨ eitherOrder b f k s = f (k { s with choices := n }) := by
  unfold eitherOrder
  simp only
  split
  · exact ⟨s.choices + 1, by split <;> simp⟩
  · exact ⟨s.choices, Or.inl rfl⟩

/-! ## Events -/

theorem notify_read (hH : IgnoresHosts g) (h : Host) (b : EventBody) (s : State) : g (notify h b s) = g s := hH ..

theorem broadcast_read (hH : IgnoresHosts g) (b : EventBody) (s : State) : g (broadcast b s) = g s :=
  forHosts_read _ (fun h s => notify_read hH h b s) s

theorem withResult_read (hH : IgnoresHosts g) (h : Host) (a : Byte) (st : Status) (vs : List Byte) (s : State) :
    g (s.withResult h a st vs) = g s := hH ..

/-! ## The Mirror Table -/

theorem modEntry_read (hS : IgnoresSlots g) (i : SlotIx) (f : Entry → Entry) (s : State) : g (s.modEntry i f) = g s := hS ..

theorem entryEvent_read (hH : IgnoresHosts g) (i : SlotIx) (k : EventKind) (why : Reason) (s : State) :
    g (entryEvent i k why s) = g s := by
  refine forHosts_read _ (fun h s => ?_) s
  split
  · rfl
  · split
    · exact notify_read hH ..
    · rfl

theorem evaluateWatch_read (hH : IgnoresHosts g) (hS : IgnoresSlots g) (i : SlotIx) (h : Host) (s : State) :
    g (evaluateWatch i h s) = g s := by
  unfold evaluateWatch
  repeat' split
  all_goals try rfl
  dsimp only
  repeat' split
  all_goals simp [notify_read hH, modEntry_read hS]

theorem evaluateWatches_read (hH : IgnoresHosts g) (hS : IgnoresSlots g) (i : SlotIx) (s : State) :
    g (evaluateWatches i s) = g s :=
  forHosts_read _ (fun h s => evaluateWatch_read hH hS i h s) s

theorem meetLimit_read (hH : IgnoresHosts g) (hS : IgnoresSlots g) (i : SlotIx) (s : State) :
    g (meetLimit i s) = g s := by
  unfold meetLimit
  repeat' split
  all_goals simp [entryEvent_read hH, modEntry_read hS]

theorem checkLimits_read (hH : IgnoresHosts g) (hS : IgnoresSlots g) (s : State) : g (checkLimits s) = g s :=
  forSlots_read _ (fun i s => meetLimit_read hH hS i s) s

theorem queuePoll_read (hS : IgnoresSlots g) (hP : IgnoresPolls g) (i : SlotIx) (s : State) :
    g (queuePoll i s) = g s := by
  unfold queuePoll
  repeat' split
  all_goals simp [modEntry_read hS, hP]

theorem emptyPollQueue_read (hS : IgnoresSlots g) (hP : IgnoresPolls g) (l : Link) (s : State) :
    g (emptyPollQueue l s) = g s := by
  unfold emptyPollQueue
  simp only
  rw [hP]
  exact foldl_read _ (fun s item => modEntry_read hS ..) _ s

theorem applyPollEnding_read (hH : IgnoresHosts g) (hS : IgnoresSlots g) (hP : IgnoresPolls g) (i : SlotIx) (gen : Byte)
    (n : Node) (a : Word16) (len : Nat) (ep : Word16) (o : Reason) (data : List Byte) (s : State) :
    g (applyPollEnding i gen n a len ep o data s) = g s := by
  unfold applyPollEnding acceptFill failPoll
  dsimp only
  repeat' split
  all_goals simp [modEntry_read hS, queuePoll_read hS hP, entryEvent_read hH, evaluateWatches_read hH hS]

theorem mirrorWriteOk_read (hH : IgnoresHosts g) (hS : IgnoresSlots g) (n : Node) (a : Word16) (bs : List Byte)
    (s : State) : g (mirrorWriteOk n a bs s) = g s := by
  refine forEntries_read _ _ (fun i s => ?_) s
  unfold writeIntoEntry
  split
  · rfl
  · simp only [evaluateWatches_read hH hS]
    split <;> simp [entryEvent_read hH, modEntry_read hS]

theorem mirrorWriteFailed_read (hS : IgnoresSlots g) (hP : IgnoresPolls g) (n : Node) (a : Word16) (len : Nat)
    (s : State) : g (mirrorWriteFailed n a len s) = g s := by
  refine forEntries_read _ _ (fun i s => ?_) s
  simp [failWriteOnEntry, queuePoll_read hS hP, modEntry_read hS]

theorem markEntry_read (hS : IgnoresSlots g) (hP : IgnoresPolls g) (i : SlotIx) (s : State) :
    g (markEntry i s) = g s := by
  unfold markEntry
  repeat' split
  all_goals simp [queuePoll_read hS hP, modEntry_read hS]

theorem suspendEntry_read (hS : IgnoresSlots g) (hP : IgnoresPolls g) (i : SlotIx) (s : State) :
    g (suspendEntry i s) = g s := by
  unfold suspendEntry dropPoll
  repeat' split
  all_goals simp [modEntry_read hS, hP]

theorem suspendNode_read (hS : IgnoresSlots g) (hP : IgnoresPolls g) (n : Node) (s : State) :
    g (suspendNode n s) = g s :=
  forEntries_read _ _ (fun i s => suspendEntry_read hS hP i s) s

theorem resumeNode_read (hH : IgnoresHosts g) (hS : IgnoresSlots g) (hP : IgnoresPolls g) (n : Node) (s : State) :
    g (resumeNode n s) = g s := by
  refine forEntries_read _ _ (fun i s => ?_) s
  unfold resumeEntry
  repeat' split
  all_goals simp [queuePoll_read hS hP, modEntry_read hS, entryEvent_read hH]

theorem removeHolder_read (hH : IgnoresHosts g) (hS : IgnoresSlots g) (hP : IgnoresPolls g) (h : Host) (i : SlotIx)
    (s : State) : g (removeHolder h i s) = g s := by
  unfold removeHolder freeSlot dropPoll
  simp only
  repeat' split
  all_goals simp [modEntry_read hS, meetLimit_read hH hS, hP, hS]

theorem ageEntries_read (hS : IgnoresSlots g) (s : State) : g (ageEntries s) = g s :=
  forSlots_read _ (fun _ _ => modEntry_read hS ..) s

theorem tickClasses_read (hS : IgnoresSlots g) (hP : IgnoresPolls g) (s : State) : g (tickClasses s) = g s := by
  refine forSlots_read _ (fun i s => ?_) s
  unfold tickEntry
  repeat' split
  all_goals simp [queuePoll_read hS hP, modEntry_read hS]

/-! ## The Claim Unit -/

theorem releaseClaim_read (hH : IgnoresHosts g) (hC : IgnoresClaims g) (n : Node) (s : State) :
    g (releaseClaim n s) = g s := by
  unfold releaseClaim startLease
  split <;> simp [hC, notify_read hH]

theorem expireClaims_read (hH : IgnoresHosts g) (hC : IgnoresClaims g) (s : State) : g (expireClaims s) = g s := by
  refine forNodes_read _ (fun n s => ?_) s
  unfold expireClaim
  repeat' split
  all_goals simp [releaseClaim_read hH hC, notify_read hH]

theorem clearClaims_read (hH : IgnoresHosts g) (hC : IgnoresClaims g) (h : Host) (s : State) :
    g (clearClaims h s) = g s := by
  refine forNodes_read _ (fun n s => ?_) s
  unfold clearClaim withdrawWait
  split <;> simp [releaseClaim_read hH hC, hC]

/-! ## The write queues -/

theorem completeDrain_read (hH : IgnoresHosts g) (h : Host) (s : State) : g (completeDrain h s) = g s := by
  unfold completeDrain
  repeat' split
  all_goals simp [notify_read hH, hH]

theorem finishWrite_read (hH : IgnoresHosts g) (hS : IgnoresSlots g) (hP : IgnoresPolls g) (hW : IgnoresWrites g)
    (l : Link) (r : WriteRecord) (o : Reason) (s : State) : g (finishWrite l r o s) = g s := by
  unfold finishWrite countDrainFailure
  simp only
  repeat' split
  all_goals
    simp [completeDrain_read hH, hW, hH, notify_read hH, mirrorWriteOk_read hH hS, mirrorWriteFailed_read hS hP]

theorem failWrites_read (hH : IgnoresHosts g) (hS : IgnoresSlots g) (hP : IgnoresPolls g) (hW : IgnoresWrites g)
    (l : Link) (p : WriteRecord → Bool) (why : Reason) (s : State) : g (failWrites l p why s) = g s :=
  foldl_read _ (fun s r => finishWrite_read hH hS hP hW l r why s) _ s

theorem takeWrite_read (hH : IgnoresHosts g) (hS : IgnoresSlots g) (hP : IgnoresPolls g) (hW : IgnoresWrites g)
    (h : Host) (l : Link) (s : State) : g (takeWrite h l s) = g s := by
  unfold takeWrite dropReservation
  simp only
  repeat' split
  all_goals simp [finishWrite_read hH hS hP hW, hW, hH]

theorem releaseWrites_read (hH : IgnoresHosts g) (hS : IgnoresSlots g) (hP : IgnoresPolls g) (hW : IgnoresWrites g)
    (n : Node) (s : State) : g (releaseWrites n s) = g s := by
  simp [releaseWrites, hW, failWrites_read hH hS hP hW]

theorem clearWrites_read (hH : IgnoresHosts g) (hW : IgnoresWrites g) (h : Host) (s : State) :
    g (clearWrites h s) = g s := by
  simp [clearWrites, hW, hH]

/-! ## The arbiters -/

theorem grantTag_read (hA : IgnoresArbiters g) (l : Link) (t : Tag) (c : RequestClass) (r : Request) (s : State) :
    g (grantTag l t c r s) = g s := hA ..

theorem grantOne_read (hA : IgnoresArbiters g) (hW : IgnoresWrites g) (hS : IgnoresSlots g) (hP : IgnoresPolls g)
    (l : Link) (s : State) : g (grantOne l s) = g s := by
  unfold grantOne serveWrite serveRead servePoll sendWrite
  simp only
  repeat' split
  all_goals simp [grantTag_read hA, modEntry_read hS, hA, hP, hW]

theorem grants_read (hA : IgnoresArbiters g) (hW : IgnoresWrites g) (hS : IgnoresSlots g) (hP : IgnoresPolls g)
    (s : State) : g (grants s) = g s := by
  simp [grants, grantLink, grantOne_read hA hW hS hP]

theorem requestSent_read (hA : IgnoresArbiters g) (l : Link) (s : State) : g (requestSent l s) = g s := by
  unfold requestSent
  repeat' split
  all_goals simp [hA]

theorem copySent_read (hA : IgnoresArbiters g) (l : Link) (s : State) : g (copySent l s) = g s := by
  unfold copySent
  repeat' split
  all_goals simp [hA, requestSent_read hA]

theorem keepBegun_read (hA : IgnoresArbiters g) (hC : IgnoresChoices g) (l : Link) (t : Tag) (r : Request) (s : State) :
    g (keepBegun l t r s) = g s := by
  unfold keepBegun
  dsimp only
  repeat' split
  all_goals simp [hA, hC]

theorem withdraw_read (hA : IgnoresArbiters g) (l : Link) (t : Tag) (s : State) : g (withdraw l t s) = g s := by
  simp [withdraw, hA]

theorem keepBegunOf_read (hA : IgnoresArbiters g) (hC : IgnoresChoices g) (l : Link) (p : Request → Bool) (s : State) :
    g (keepBegunOf l p s) = g s := by
  unfold keepBegunOf
  repeat' split
  all_goals simp [keepBegun_read hA hC]

theorem freeTag_read (hA : IgnoresArbiters g) (hC : IgnoresChoices g) (l : Link) (t : Tag) (r : Request) (s : State) :
    g (freeTag l t r s) = g s := by
  simp [freeTag, withdraw_read hA, keepBegun_read hA hC]

theorem resend_read (hA : IgnoresArbiters g) (hK : IgnoresLinks g) (l : Link) (t : Tag) (s : State) :
    g (resend l t s) = g s := by
  simp [resend, hA, hK]

theorem finishFetch_read (hH : IgnoresHosts g) (h : Host) (tk : Byte) (rep : Bool) (n : Node) (a : Word16) (len : Nat)
    (o : Reason) (data : List Byte) (s : State) : g (finishFetch h tk rep n a len o data s) = g s := by
  unfold finishFetch
  split <;> simp [notify_read hH, hH]

theorem handOver_read (hH : IgnoresHosts g) (hS : IgnoresSlots g) (hP : IgnoresPolls g) (hW : IgnoresWrites g)
    (l : Link) (r : Request) (o : Reason) (data : List Byte) (s : State) : g (handOver l r o data s) = g s := by
  unfold handOver
  repeat' split
  all_goals simp [applyPollEnding_read hH hS hP, finishFetch_read hH, finishWrite_read hH hS hP hW]

theorem endRequests_read (hH : IgnoresHosts g) (hS : IgnoresSlots g) (hP : IgnoresPolls g) (hW : IgnoresWrites g)
    (hA : IgnoresArbiters g) (hC : IgnoresChoices g) (l : Link) (p : Request → Bool) (why : Request → Reason)
    (s : State) : g (endRequests l p why s) = g s := by
  unfold endRequests
  refine (forTags_read _ (fun t s => ?_) _).trans (keepBegunOf_read hA hC ..)
  repeat' split
  all_goals simp [handOver_read hH hS hP hW, withdraw_read hA]

theorem endFetches_read (hH : IgnoresHosts g) (hA : IgnoresArbiters g) (l : Link) (p : FetchItem → Bool) (why : Reason)
    (s : State) : g (endFetches l p why s) = g s := by
  unfold endFetches
  simp only
  rw [foldl_read _ (fun s f => finishFetch_read hH ..), hA]

/-! ## The Node Directory and the links -/

theorem leavePresent_read (hH : IgnoresHosts g) (hS : IgnoresSlots g) (hP : IgnoresPolls g) (hW : IgnoresWrites g)
    (hA : IgnoresArbiters g) (hN : IgnoresNodes g) (hC : IgnoresChoices g) (n : Node) (p : Presence)
    (cause : Option IdentCause) (why : Reason) (s : State) : g (leavePresent n p cause why s) = g s := by
  unfold leavePresent
  simp only
  rw [suspendNode_read hS hP, eitherOrder_read hC, hN]
  · intro s
    simp [endNodeRequests, endFetches_read hH hA, endRequests_read hH hS hP hW hA hC]
  · intro s
    unfold leaveNodeWrites lapseReservations holdWrites failNodeWrites
    simp only [hW]
    split <;> simp [hW, failWrites_read hH hS hP hW]

theorem beginIdent_read (hA : IgnoresArbiters g) (hN : IgnoresNodes g) (n : Node) (c : IdentCause) (s : State) :
    g (beginIdent n c s) = g s := by
  simp [beginIdent, issueIdent, hA, hN]

theorem enterEnumerating_read (hA : IgnoresArbiters g) (hN : IgnoresNodes g) (hK : IgnoresLinks g) (l : Link)
    (s : State) : g (enterEnumerating l s) = g s := by
  unfold enterEnumerating
  simp only
  rw [foldl_read _ (fun s n => beginIdent_read hA hN n _ s), hK]

theorem identEnded_read (hH : IgnoresHosts g) (hS : IgnoresSlots g) (hP : IgnoresPolls g) (hW : IgnoresWrites g)
    (hN : IgnoresNodes g) (hK : IgnoresLinks g) (hC : IgnoresChoices g) (n : Node) (o : Reason) (data : List Byte)
    (s : State) : g (identEnded n o data s) = g s := by
  have hRep : ∀ l s, g (reportEnumeration l s) = g s := fun l s => by
    unfold reportEnumeration enterUp
    split <;> simp [broadcast_read hH, hK]
  have hFail : ∀ st why s, g (failNodeWrites n st why s) = g s := fun st why s => failWrites_read hH hS hP hW ..
  have hAns : ∀ i c s, g (identAnswered n i c s) = g s := fun i c s => by
    have hRec : g (recordIdentity n i c s) = g s := by
      unfold recordIdentity
      simp only
      split
      · exact hN ..
      · rw [forEntries_read _ _ (fun i s => meetLimit_read hH hS i s), hN]
    unfold identAnswered becomePresent nodeEvent
    simp only
    split
    · rw [eitherOrder_read hC _ _ _ (fun s => resumeNode_read hH hS hP n s)
        (fun s => releaseWrites_read hH hS hP hW n s)]
      split <;> simp [broadcast_read hH, hN, hRec]
    · simp [hFail, broadcast_read hH, hN, hRec]
  have hAbs : ∀ o s, g (identFailed n o s) = g s := fun o s => by
    unfold identFailed nodeEvent
    simp only [hFail]
    split <;> simp [broadcast_read hH, hN]
  unfold identEnded
  repeat' split
  all_goals simp [hRep, hAns, hAbs]

theorem departLink_read (hH : IgnoresHosts g) (hS : IgnoresSlots g) (hP : IgnoresPolls g) (hW : IgnoresWrites g)
    (hA : IgnoresArbiters g) (hN : IgnoresNodes g) (hK : IgnoresLinks g) (hC : IgnoresChoices g) (l : Link)
    (next : LinkState) (why : Reason) (s : State) : g (departLink l next why s) = g s := by
  unfold departLink
  simp only
  rw [forEntries_read _ _ (fun i s => suspendEntry_read hS hP i s), eitherOrder_read hC, emptyPollQueue_read hS hP]
  · unfold departNodes
    rw [foldl_read _ (fun s n => hN ..)]
    split <;> simp [broadcast_read hH, goQuiet, hA, hK]
  · intro s
    unfold departArbiter
    simp [hA, endFetches_read hH hA, endRequests_read hH hS hP hW hA hC]
  · intro s
    unfold departWrites lapseReservations
    simp [hW, failWrites_read hH hS hP hW]

/-! ## The millisecond event -/

theorem settle_read (hH : IgnoresHosts g) (hS : IgnoresSlots g) (hP : IgnoresPolls g) (hW : IgnoresWrites g)
    (hA : IgnoresArbiters g) (hN : IgnoresNodes g) (hK : IgnoresLinks g) (hC : IgnoresChoices g) (hCl : IgnoresClaims g)
    (hD : IgnoresDue g) (s : State) : g (settle s) = g s := by
  have h1 : ∀ s, g (takeStaleCheck s) = g s := fun s => by
    unfold takeStaleCheck; split <;> simp [checkLimits_read hH hS, hD]
  have h2 : ∀ s, g (takeTicks s) = g s := fun s => by
    unfold takeTicks; split <;> simp [grants_read hA hW hS hP, tickClasses_read hS hP, hD]
  have h3 : ∀ s, g (takeLeases s) = g s := fun s => by
    unfold takeLeases; split <;> simp [expireClaims_read hH hCl, hD]
  have hL := departLink_read hH hS hP hW hA hN hK hC
  have h4 : ∀ l s, g (takeDeadline l s) = g s := fun l s => by
    unfold takeDeadline trainingDeadline; split
    · split <;> simp [hL, hD]
    · rfl
  have h5 : ∀ l s, g (takeHoldOff l s) = g s := fun l s => by
    unfold takeHoldOff holdOffEnd; split
    · split <;> simp [hK, hD]
    · rfl
  have h6 : ∀ l s, g (takeSilence l s) = g s := fun l s => by
    unfold takeSilence silenceReached; split
    · split <;> simp [hL, hD]
    · rfl
  simp [settle, takeLinkParts, h1, h2, h3, h4, h5, h6]

end Sys2Proof.Machine
end

