-- ==== Sys2Proof/WellFormed.lean ====
section
/-!
DEFINITION. The well-formedness of a command: the bounds that its operand types do not carry by themselves.
-/

namespace Sys2Proof

/-- A frame row's bytes, where they begin a frame, are judged to be a frame of the row's kind (none: a bad frame), with
nothing beyond it (R98, R173). -/
def frameOk (l : Link) (code : Option Byte) (bytes : List Byte) : Bool :=
  decide ((Machine.receiveFrame l bytes).1.code = code) && (Machine.receiveFrame l bytes).2.isEmpty

/-- A taken command has 1 to 16 acknowledged parameter bytes (R150). -/
def paramsOk (ps : List Byte) : Bool := decide (1 ≤ ps.length ∧ ps.length ≤ 16)

/-- The frames that are what their row says, and the takeable commands (R98, R150). A command that is not well formed still
has its meaning in the machine (a frame is what its bytes are judged to be, an empty command is not taken). -/
def Instr.wf : Instr → Bool
  | .reset _ _ => true
  | .millisecondEvent => true
  | .classTick => true
  | .staleLimitReached => true
  | .leaseExpiry => true
  | .trainingDeadline _ => true
  | .holdOffEnd _ => true
  | .silenceDetected _ => true
  | .responseTimerExpiry _ _ => true
  | .frameSent _ => true
  | .badFrame line => frameOk line.link none line.bytes
  | .syncFrame l => frameOk l (some 0x01) Machine.syncFrameBytes
  | .responseFrame l tag round node status data =>
    frameOk l (some 0x03) (Machine.responseFrameBytes tag round node status data)
  | .noticeFrame l node count address length => frameOk l (some 0x04) (Machine.noticeFrameBytes node count address length)
  | .helloFrame l node => frameOk l (some 0x05) (Machine.helloFrameBytes node)
  | .aliasWriteAddressByte _ _ => true
  | .aliasReadAddressByte _ _ => true
  | .controlWriteAddressByte _ => true
  | .controlReadAddressByte _ => true
  | .addressNotAcknowledged _ _ _ => true
  | .registerByte _ _ => true
  | .aliasWriteDataByte _ _ => true
  | .controlWriteOtherPosition _ _ => true
  | .aliasReadByte _ => true
  | .aliasWriteEnd _ => true
  | .aliasReadEnd _ => true
  | .controlReadEnd _ => true
  | .defineEntry _ ps => paramsOk ps
  | .leaveEntry _ ps => paramsOk ps
  | .queryEntry _ ps => paramsOk ps
  | .setWatch _ ps => paramsOk ps
  | .clearWatch _ ps => paramsOk ps
  | .setNotify _ ps => paramsOk ps
  | .setAlias _ ps => paramsOk ps
  | .clearAlias _ ps => paramsOk ps
  | .fetch _ ps => paramsOk ps
  | .drain _ ps => paramsOk ps
  | .claim _ ps => paramsOk ps
  | .renew _ ps => paramsOk ps
  | .unclaim _ ps => paramsOk ps
  | .queryNode _ ps => paramsOk ps
  | .queryLink _ ps => paramsOk ps
  | .clearHost _ ps => paramsOk ps
  | .setClassPeriod _ ps => paramsOk ps
  | .setLinkTiming _ ps => paramsOk ps
  | .linkStart _ ps => paramsOk ps
  | .linkStop _ ps => paramsOk ps
  | .pinNode _ ps => paramsOk ps
  | .unpinNode _ ps => paramsOk ps
  | .controlWriteDataByte _ _ => true
  | .controlReadByte _ => true

end Sys2Proof
end

