-- ==== Sys2Proof/Tests/Slice0.lean ====
section
/-!
SUPPORT. Tests on fixed values. Their expected results come from the manual's rules, tables and worked examples, named in each comment. The
theorems `witness_…` show states and operands that meet the hypotheses of the statement named, clause by clause.
-/

-- The evaluations are long: one at a time, so that they share no memory.
set_option Elab.async false

namespace Sys2Proof.Machine.Tests

open Sys2Proof Sys2Proof.Machine

/-! ## WellFormed: a term that each check refuses -/

/-- Frames of R173 written out byte by byte, their CRC worked by hand: a SYNC, a HELLO of node address 3, one of 5. -/
def syncBytes : List Byte := [0xA5, 0x01, 0x00, 0x2E, 0x3E]
def helloBytes : List Byte := [0xA5, 0x05, 0x01, 0x03, 0x24, 0x3E]
def helloOfFive : List Byte := [0xA5, 0x05, 0x01, 0x05, 0x44, 0xF8]

theorem test_wf_bad : (Instr.badFrame ⟨0, helloBytes⟩).wf = false ∧ (Instr.badFrame ⟨0, helloOfFive⟩).wf = true := by decide +kernel
theorem test_wf_beyond : (Instr.badFrame ⟨0, helloOfFive ++ [0]⟩).wf = false ∧ (Instr.badFrame ⟨0, 7 :: helloOfFive⟩).wf = true := by
  decide +kernel
theorem test_wf_hello : (Instr.helloFrame 0 5).wf = false ∧ (Instr.helloFrame 0 4).wf = true := by decide +kernel
theorem test_wf_response :
    let resp (n st : Byte) (k : Nat) := (Instr.responseFrame 0 1 1 n st (List.replicate k 0)).wf
    resp 4 3 0 = true ∧ resp 5 3 0 = false ∧ resp 1 4 0 = false ∧ resp 1 0 8 = true ∧ resp 1 0 9 = false := by decide +kernel
theorem test_wf_notice :
    let notice (c z : Byte) := (Instr.noticeFrame 0 1 c 0 z).wf
    notice 15 16 = true ∧ notice 16 1 = false ∧ notice 0 17 = false ∧ notice 0 0 = false := by decide +kernel
theorem test_wf_params : (Instr.drain 0 []).wf = false ∧ (Instr.drain 0 (List.replicate 17 0)).wf = false ∧ (Instr.drain 0 [0]).wf = true := by
  decide

/-! ## Frames (R173) -/

/-- R173: over the nine characters "123456789" the CRC gives 0x29B1. -/
theorem test_crc_check_value : crc16 [0x31, 0x32, 0x33, 0x34, 0x35, 0x36, 0x37, 0x38, 0x39] = 0x29B1 := by decide +kernel

/-- R98, R173: bytes before a start marker are skipped, and the bytes beyond a frame's CRC begin the next frame. -/
theorem test_received_hello :
    receiveFrame 1 ([0x05, 0x00] ++ helloBytes ++ syncBytes) = (.hello 6, syncBytes) := by decide +kernel

/-- R98: a wrong CRC, a node address out of range, a SYNC with a body, a kind the part does not receive and a frame cut short are
bad; what stands beyond a bad frame is kept. -/
theorem test_received_bad :
    receiveFrame 0 [0xA5, 0x05, 1, 3, 0x24, 0x3F, 9] = (.bad, [9]) ∧ receiveFrame 0 helloOfFive = (.bad, [])
      ∧ receiveFrame 0 [0xA5, 1, 1, 0, 0xC8, 0x9D] = (.bad, []) ∧ receiveFrame 0 [0xA5, 7, 0, 0x84, 0x98] = (.bad, [])
      ∧ receiveFrame 0 helloBytes.dropLast = (.bad, []) ∧ receiveFrame 0 [1, 2] = (.bad, []) := by decide +kernel

/-- R173: the bytes that the rows bring, against those written out. -/
theorem test_frame_bytes :
    syncFrameBytes = syncBytes ∧ helloFrameBytes 3 = helloBytes
      ∧ responseFrameBytes 5 2 1 0 [0x12, 0x34] = [0xA5, 3, 5, 0x25, 1, 0, 0x12, 0x34, 0x24, 0xDC]
      ∧ (noticeFrameBytes 1 2 0x0304 5).take 8 = [0xA5, 4, 5, 1, 2, 3, 4, 5] := by decide +kernel

/-- R173: tag in bits 0 to 2 and round in bits 4 and 5 of a RESPONSE's first byte. -/
theorem test_received_response :
    receiveFrame 0 [0xA5, 3, 5, 0x25, 1, 0, 0x12, 0x34, 0x24, 0xDC] = (.response 5 2 0 .ok [0x12, 0x34], []) := by decide +kernel

/-! ## The states the tests start from -/

def after (i : Instr) (s : State) : State :=
  match exec i s with
  | .next t => t
  | .fault _ => s
  | .refused _ => s

/-- Status and value bytes that a command leaves host `h`. -/
def said (h : Sys2Proof.Host) (i : Instr) (s : State) : Status × List Byte :=
  (((after i s).hosts.get h).result.status, ((after i s).hosts.get h).result.values)

def identity (max : Nat) (sends : Bool) : Identity :=
  { vendor := 0x0101, model := 0x0202, revision := 1, maxLength := max, sendsNotices := sends }

def node (p : Presence) (c : Option IdentCause) (i : Option Identity) (s : NodeRecord) : NodeRecord :=
  { s with presence := p, cause := c, identity := i }

def held (cs : Vector (Option Holder) 3) (n : Node) (first : Word16) (data : List (Option Byte)) (st : EntryState) : Entry :=
  { node := n, first := first, data := data, state := st, age := 5, epoch := 7, phase := .idle, repoll := false, fault := .none,
    skipped := 0, holders := cs }

def c1 : Option Holder := some { cls := .timed 1, watch := none }

def put (i : SlotIx) (e : Entry) (s : State) : State := s.modSlot i fun sl => { sl with entry := some e }

/-- The entry of the worked example of section 1.5, on node 0.1. -/
def slot5 : Entry := held #v[c1, none, none] 0 0x0020 [some 0x12, some 0x34] .valid

def window (strict : Bool) : AliasSlot :=
  { address := 0x30, node := 0, base := 0x0020, size := 4, access := .readWrite, strict := strict }

def record (st : WriteState) (covered : Bool) (seq : Word16) : WriteRecord :=
  { origin := 2, reported := true, seq := some seq, node := 0, address := 0x0020, data := [0x56, 0x78], state := st, lapse := none,
    covered := covered }

/-- Link 0 UP with nodes 0.1 (max length 8) and 0.2 (max length 2) PRESENT, 0.3 IDENTIFYING after a restart, 0.4 ABSENT; the
entry in slot 5, and host 2's window on node 0.1. -/
def rig : State :=
  (((((((State.reset.modLink 0 fun k => { k with state := .up }).modNode 0 (node .present none (identity 8 true))).modNode 1
    (node .present none (identity 2 false))).modNode 2 (node .identifying (some .restart) (identity 8 true))).modNode 3
    (node .absent none none)).modArbiter 0 fun a => { a with idents := [2] }) |> put 5 slot5).modHost 2 fun hs =>
      { hs with aliases := upd hs.aliases 0 fun _ => some (window false) }

def rigTime (s : State) : State := { s with timeBase := 1000, due := EventParts.allDue }

def open' (t : Transaction) (h : Sys2Proof.Host) (s : State) : State := s.modHost h fun hs => { hs with transaction := t }

def writes (rs : List WriteRecord) (s : State) : State := s.modWrites 0 fun q => { q with order := rs }

def reserve (data : List Byte) (lapse : Option Reason) (s : State) : State :=
  s.modWrites 0 fun q => { q with reserved := [{ reservationOf 2 0 with data := data, lapse := lapse }] }

def reading : Request := { newRequest (.poll 5 0 7) 0 0x0020 2 with frame := .sent, sentOnce := true, timer := some 20,
                                                                    settings := some { timeout := 20, retryLimit := 3 } }

def flying (r : Request) (s : State) : State :=
  (s.modArbiter 0 fun a => { a with tags := upd a.tags 0 fun _ => { round := 1, request := some r } }).modEntry 5 fun e =>
    { e with phase := .inFlight }

/-- Any bytes, received on link `l`. -/
def bytesOn (l : Link) (bs : List Byte) : Instr := .badFrame ⟨l, bs⟩

def claimed (h : Sys2Proof.Host) (ws : List Waiter) (s : State) : State :=
  s.modClaim 0 fun _ => { holder := some { host := h, lease := 9, leaseEnd := 1000 }, waiters := ws }

def training (run : Nat) (s : State) : State :=
  s.modLink 1 fun k => { k with state := .training, deadline := some 1000, syncRun := run, consecutiveBad := 7 }

def eventAt (k : EventKind) : EventRecord :=
  { kind := k, number := 1, subject := 0, reason := 0, value := 3, detail := none, stamp := 0 }

def events (rs : List EventRecord) (s : State) : State := s.modHost 2 fun hs => { hs with events := rs }

/-! ## Invariants and arbiters -/

/-- One of each kind of record: a reservation, a covered write of a pending DRAIN, a pending fetch, the entry in slot 5 IN_FLIGHT, one
of node 0.2 in slot 6 QUEUED, and a poll of an earlier entry of slot 7, at whose generation 3 it no longer reaches the slot. -/
def rigQ : State :=
  let s := put 6 { slot5 with node := 1, first := 0x40, phase := .queued } (writes [record .queued true 1] (reserve [1] (some .linkDown) rig))
  let s := (s.modSlot 7 fun _ => { generation := 3, entry := none }).modPolls 0 fun _ => [{ slot := 6, generation := 0 }]
  let s := s.modHost 2 fun hs => { hs with drain := some { counter := 1, covered := 1, failed := 0 } }
  { (flying reading s).modArbiter 0 fun a =>
      { a with tags := upd a.tags 1 fun _ => { round := 1, request := some { reading with kind := .poll 7 2 0 } },
               fetches := [{ host := 1, ticket := 4, node := 0, address := 0, length := 1, reported := true }] } with
    pending := [.frameSent 0] }

/-- A state that meets every invariant, with a command at the front of its queue, on which step answers next. -/
theorem witness_invariants :
    (rigQ.eventsOk ∧ rigQ.claimsOk ∧ rigQ.freshOk ∧ rigQ.writeQueuesOk ∧ rigQ.outstandingOk) ∧ (rigQ.aliasesOk ∧ rigQ.nodesOk ∧ rigQ.linksOk ∧ rigQ.mirrorOk)
      ∧ (rigQ.drainsOk ∧ rigQ.pollsOk ∧ rigQ.pollsCounted ∧ rigQ.fetchLimitOk) ∧ rigQ.trafficOk
      ∧ ∃ t, step rigQ = .next t ∧ rigQ.noPollReached t :=
  ⟨⟨by decide +kernel, by decide +kernel, by decide +kernel, by decide +kernel, by decide +kernel⟩,
    ⟨by decide +kernel, by decide +kernel, by decide +kernel, by decide +kernel⟩,
    ⟨by decide +kernel, by decide +kernel, by decide +kernel, by decide +kernel⟩,
    ⟨by decide +kernel, by decide +kernel, by decide +kernel, by decide +kernel, by decide +kernel, by decide +kernel, by decide +kernel⟩,
    after (.frameSent 0) { rigQ with pending := [] }, rfl, by decide +kernel⟩

/-- The invariants of polls, fetches and DRAINs fail where a record is missing or stands there twice. -/
theorem test_invariants_refuse :
    ¬ (rigQ.modPolls 0 fun q => q ++ q).pollsCounted
      ∧ ¬ (rigQ.modArbiter 0 fun a => { a with fetches := a.fetches ++ a.fetches }).fetchLimitOk ∧ ¬ (writes [] rigQ).drainsOk :=
  ⟨by decide +kernel, by decide +kernel, by decide +kernel⟩
theorem test_queued_needs_item : ¬ (rigQ.modPolls 0 fun _ => []).pollsOk := by decide +kernel
theorem test_in_flight_needs_poll : ¬ (rigQ.modArbiter 0 fun a => { a with tags := Vector.replicate 8 { round := 0, request := none } }).pollsOk := by
  decide +kernel

/-- GrantingGoesOn, GrantServesClassesInTurn: nothing eligible; the write class alone, and by the mark; the three sources of the
read class. -/
theorem witness_grants :
    let w := writes [record .queued false 1] rig
    let polls := (rig.modArbiter 0 fun a => { a with idents := [], nextClass := .read }).modPolls 0 fun _ => [{ slot := 5, generation := 0 }]
    let fetch : FetchItem := { host := 1, ticket := 9, node := 0, address := 0, length := 8, reported := true }
    let fetches := polls.modArbiter 0 fun a => { a with fetches := [fetch] }
    (rig.entriesOk ∧ State.reset.writeEligible 0 = false ∧ State.reset.readEligible 0 = false)
      ∧ ((w.arbiters.get 0).lowestFree = some 0 ∧ w.linkState 0 = .up ∧ (w.writeQueues.get 0).offered = some (record .queued false 1)
        ∧ w.readEligible 0 = true ∧ (w.arbiters.get 0).nextClass = .write)
      ∧ (rig.readEligible 0 = true ∧ rig.writeEligible 0 = false ∧ (rig.arbiters.get 0).idents = [2])
      ∧ (fetches.readEligible 0 = true ∧ (fetches.arbiters.get 0).idents = [] ∧ (fetches.arbiters.get 0).fetches = [fetch])
      ∧ (polls.readEligible 0 = true ∧ (polls.arbiters.get 0).fetches = [] ∧ polls.pollQueues.get 0 = [{ slot := 5, generation := 0 }]
        ∧ polls.entry 5 = some slot5)
      ∧ (training 0 rig).linkState 1 = .training := by decide +kernel

/-- R39, R113: an ENUMERATING link serves IDENTs and no poll, fetch or write; TRAINING, OFF and DOWN serve nothing. -/
theorem test_eligible :
    let all := fun (st : LinkState) => (writes [record .queued false 1] (rigQ.modLink 0 fun k => { k with state := st }))
    let noIdent := fun (st : LinkState) => (all st).modArbiter 0 fun a => { a with idents := [] }
    let can := fun (s : State) => (s.readEligible 0, s.writeEligible 0)
    can (all .up) = (true, true) ∧ can (noIdent .up) = (true, true) ∧ can (all .enumerating) = (true, false)
      ∧ can (noIdent .enumerating) = (false, false) ∧ can (all .training) = (false, false) ∧ can (all .down) = (false, false) := by
  decide +kernel

/-- R114, R115: with the mark at WRITE the write is served first, then the IDENT; both tags carry round 1. -/
theorem test_grants_alternate :
    let t := grants (writes [record .queued false 1] rig)
    (t.request 0 0).map Request.kind = some .write ∧ (t.request 0 1).map Request.kind = some .ident
      ∧ ((t.arbiters.get 0).tags.get 1).round = 1 ∧ (t.arbiters.get 0).txOrder = [0, 1] := by decide +kernel

/-! ## Taking a command -/

/-- CommandJudgedAfterMillisecond: no part open, and the host's own control write open; another transaction open; no control write
with data bytes. -/
theorem witness_judged :
    let s := open' (.controlWrite (some Command.drain.address) [0]) 0 rig
    s.due = EventParts.noneDue ∧ s.transaction 0 = .controlWrite (some Command.drain.address) [0] ∧ rig.transaction 0 = .idle
      ∧ s.transaction 0 ≠ .controlWrite (some Command.claim.address) [0] := by
  decide +kernel

/-- R29, R72, R101, R132: a command with every part open, and an alias write open with a byte, finds the write taken, the lease run out
and the deadline passed, and leaves the pointer. -/
theorem test_judged_settles :
    let s := open' (.aliasWrite 0 (window false) (.data 1)) 2 (reserve [1] none (rigTime (claimed 0 [] (training 0 rig))))
    let t := (s.modHost 2 fun hs => { hs with pointer := 9 }).judged .drain 2 [0]
    t.transaction 2 = .idle ∧ (t.claims.get 0).holder = none ∧ t.linkState 1 = .down ∧ (t.hosts.get 2).pointer = 9
      ∧ (t.writeQueues.get 0).reserved = [] ∧ (t.writeQueues.get 0).order.map WriteRecord.data = [[1]] := by decide +kernel

/-- R132, R150: a control window write with a data byte has its command taken when a row without data bytes closes it. -/
theorem test_empty_row_closes_write :
    ((after (.claim 0 []) (open' (.controlWrite (some Command.drain.address) [0]) 0 rig)).hosts.get 0).result.address = 0x8D := by
  decide +kernel

/-- ByteCountAndPermissionChecked: a wrong count; a setup-host command of host 1; R152's 16 bytes and 17 bytes. -/
theorem witness_checks :
    ([0, 0] : List Byte).length ≠ Command.drain.byteCount ∧ ([1] : List Byte).length = Command.linkStart.byteCount
      ∧ Command.linkStart.setupOnly = true ∧ (1 : Sys2Proof.Host) ≠ rig.setupHost
      ∧ said 0 (.claim 0 (List.replicate 16 1)) rig = (.badParam, []) ∧ said 1 (.linkStart 1 [1]) rig = (.notPermitted, [])
      ∧ said 0 (.linkStart 0 [1]) rig = (.ok, [0]) := by decide +kernel

/-! ## Mirror Table commands -/

/-- DefineEntryCreates, for the node not PRESENT, too short, and fit, at the last register and the longest range (R12). -/
theorem witness_define_creates :
    let s (n : Byte) (len : Byte) := rig.judged .defineEntry 1 [n, 0xFF, 0xF8, len, 4]
    let free (t : State) (n : Node) := (∀ j, ∀ e ∈ t.entry j, e.node = n → rangesShare 65528 8 e.first.toNat e.length = false)
      ∧ t.entry 0 = none
    (free (s 0x01 8) 0 ∧ (s 0x01 8).presence 0 = .present ∧ 8 ≤ (s 0x01 8).maxLength 0 ∧ rangeOk 0xFFF8 8 = true)
      ∧ (free (s 0x02 3) 1 ∧ (s 0x02 3).presence 1 = .present ∧ (s 0x02 3).maxLength 1 < 3)
      ∧ (free (s 0x11 8) 4 ∧ (s 0x11 8).presence 4 ≠ .present ∧ RateClass.ofByte 4 = some .notice ∧ nodeOfRef 0x11 = some 4) := by
  decide +kernel

/-- R12: index 0 and generation 0; the first poll is in flight after the grants; a node too short gives FAILED (4). -/
theorem test_define_answers :
    said 1 (.defineEntry 1 [0x01, 0xFF, 0xF8, 8, 4]) rig = (.ok, [0, 0])
      ∧ ((after (.defineEntry 1 [0x01, 0xFF, 0xF8, 8, 4]) rig).entry 0).map Entry.phase = some .inFlight
      ∧ ((after (.defineEntry 1 [0x02, 0, 0, 3, 0]) rig).entry 0).map Entry.state = some .failed := by decide +kernel

/-- DefineEntryJoinsOrUpdates: host 0 holds slot 5, host 1 does not. -/
theorem witness_define_joins :
    (rig.judged .defineEntry 0 [0x01, 0, 0x20, 2, 3]).entry 5 = some slot5 ∧ slot5.holders.get 0 ≠ none ∧ slot5.holders.get 1 = none
      ∧ (∀ j : SlotIx, j < 5 → rig.entry j = none) ∧ slot5.length = 2
      ∧ said 0 (.defineEntry 0 [0x01, 0, 0x20, 2, 3]) rig = (.updated, [5])
      ∧ said 1 (.defineEntry 1 [0x01, 0, 0x20, 2, 3]) rig = (.joined, [5]) := by decide +kernel

/-- DefineEntryRefusals: each bound; an overlap by one register at either end; a full table. -/
theorem witness_define_refused :
    let full := { rig with slots := Vector.replicate 48 { generation := 0, entry := some { slot5 with node := 7 } } }
    said 0 (.defineEntry 0 [0x05, 0, 0, 1, 0]) rig = (.badParam, []) ∧ said 0 (.defineEntry 0 [0x21, 0, 0, 1, 0]) rig = (.badParam, [])
      ∧ said 0 (.defineEntry 0 [0x01, 0, 0, 0, 0]) rig = (.badParam, []) ∧ said 0 (.defineEntry 0 [0x01, 0, 0, 9, 0]) rig = (.badParam, [])
      ∧ said 0 (.defineEntry 0 [0x01, 0xFF, 0xF9, 8, 0]) rig = (.badParam, []) ∧ said 0 (.defineEntry 0 [0x01, 0, 0, 1, 5]) rig = (.badParam, [])
      ∧ said 0 (.defineEntry 0 [0x01, 0, 0x1F, 2, 0]) rig = (.overlap, []) ∧ said 0 (.defineEntry 0 [0x01, 0, 0x21, 2, 0]) rig = (.overlap, [])
      ∧ said 0 (.defineEntry 0 [0x01, 0, 0x22, 2, 0]) full = (.tableFull, []) := by decide +kernel

/-- LeaveEntryRemovesHolder: index 48, a free slot, no holder, the last holder, one of two holders. -/
theorem witness_leave :
    let two := put 5 { slot5 with holders := #v[c1, none, c1] } rig
    said 0 (.leaveEntry 0 [48]) rig = (.badParam, []) ∧ said 0 (.leaveEntry 0 [47]) rig = (.notFound, [])
      ∧ said 1 (.leaveEntry 1 [5]) rig = (.notHolder, []) ∧ said 0 (.leaveEntry 0 [5]) rig = (.ok, [0])
      ∧ (after (.leaveEntry 0 [5]) rig).slots.get 5 = { generation := 1, entry := none } ∧ said 2 (.leaveEntry 2 [5]) two = (.ok, [1])
      ∧ ((after (.leaveEntry 2 [5]) two).entry 5).map Entry.holders = some #v[c1, none, none] := by decide +kernel

/-- QueryEntryAnswers: index 48, a free slot, and slot 5: VALID with data, IDLE; classes 1, none, none; effective C1; age 5; epoch 7 (R172). -/
theorem witness_query_entry :
    said 1 (.queryEntry 1 [48]) rig = (.badParam, []) ∧ said 1 (.queryEntry 1 [47]) rig = (.notFound, [0])
      ∧ said 1 (.queryEntry 1 [5]) rig = (.ok, [0x12, 0xF1, 0x1F, 0, 5, 0, 7, 0, 0, 0]) := by decide +kernel

/-- WatchCommands: the four checks, an entry without data, and 0x1234 below, inside and above a band (R164, R165). -/
theorem witness_watches :
    let set (h : Sys2Proof.Host) (i lo hi : Byte) := Instr.setWatch h [i, 0, 0, lo, 0, 0, 0, hi, 0]
    let long := put 6 { slot5 with data := List.replicate 5 (some 1) } rig
    let empty := put 6 { slot5 with data := [none, some 1] } rig
    said 0 (set 0 48 0 0) rig = (.badParam, []) ∧ said 0 (set 0 5 2 1) rig = (.badParam, []) ∧ said 0 (set 0 47 1 1) rig = (.notFound, [])
      ∧ said 1 (set 1 5 1 1) rig = (.notHolder, []) ∧ said 0 (set 0 6 1 1) long = (.badParam, []) ∧ said 0 (set 0 6 1 1) empty = (.ok, [0])
      ∧ said 0 (set 0 5 0x13 0x14) rig = (.ok, [1]) ∧ said 0 (set 0 5 0x12 0x13) rig = (.ok, [2]) ∧ said 0 (set 0 5 0x10 0x12) rig = (.ok, [3])
      ∧ said 0 (.clearWatch 0 [48]) rig = (.badParam, []) ∧ said 0 (.clearWatch 0 [47]) rig = (.notFound, [])
      ∧ said 1 (.clearWatch 1 [5]) rig = (.notHolder, []) ∧ said 0 (.clearWatch 0 [5]) rig = (.ok, [0]) := by decide +kernel

/-! ## Port and Event Unit commands, FETCH and DRAIN -/

/-- SetNotifyReplacesSettings, at the bounds of enable and mask. -/
theorem witness_notify :
    said 0 (.setNotify 0 [2, 0, 0]) rig = (.badParam, []) ∧ said 0 (.setNotify 0 [1, 0x08, 0x00]) rig = (.badParam, [])
      ∧ said 0 (.setNotify 0 [1, 0x07, 0xFF]) rig = (.ok, [0, 0, 0])
      ∧ ((after (.setNotify 0 [1, 0x07, 0xFF]) rig).hosts.get 0).mask = 0x07FF := by decide +kernel

/-- AliasCommands, at the bounds of each parameter; the control address and the host's other slot are taken. -/
theorem witness_aliases :
    let set (k a n z1 z0 x t : Byte) := said 2 (.setAlias 2 [k, a, n, 0xFF, 0x00, z1, z0, x, t]) rig
    set 8 0x31 1 0 1 0 0 = (.badParam, []) ∧ set 7 0x07 1 0 1 0 0 = (.badParam, []) ∧ set 7 0x78 1 0 1 0 0 = (.badParam, [])
      ∧ set 7 0x31 0 0 1 0 0 = (.badParam, []) ∧ set 7 0x31 1 0 0 0 0 = (.badParam, []) ∧ set 7 0x31 1 1 1 0 0 = (.badParam, [])
      ∧ set 7 0x31 1 0 1 2 0 = (.badParam, []) ∧ set 7 0x31 1 0 1 0 2 = (.badParam, []) ∧ set 7 0x2C 1 0 1 0 0 = (.duplicateAlias, [])
      ∧ set 7 0x30 1 0 1 0 0 = (.duplicateAlias, []) ∧ set 0 0x30 1 0 1 0 0 = (.ok, [0]) ∧ set 7 0x77 0x14 1 0 1 1 = (.ok, [7])
      ∧ said 2 (.clearAlias 2 [8]) rig = (.badParam, []) ∧ said 2 (.clearAlias 2 [7]) rig = (.notFound, [])
      ∧ said 2 (.clearAlias 2 [0]) rig = (.ok, [0]) := by decide +kernel

/-- FetchChecksAndAcceptance: the five checks and the first ticket. -/
theorem witness_fetch :
    let fetch (n a1 a0 len : Byte) := Instr.fetch 0 [n, a1, a0, len]
    let busy := rig.modArbiter 0 fun a => { a with fetches := [{ host := 0, ticket := 1, node := 0, address := 0, length := 1, reported := true }] }
    let gone := flying { reading with kind := .fetch 0 1 false } rig
    said 0 (fetch 0x05 0 0 1) rig = (.badParam, []) ∧ said 0 (fetch 0x01 0 0 0) rig = (.badParam, []) ∧ said 0 (fetch 0x01 0 0 9) rig = (.badParam, [])
      ∧ said 0 (fetch 0x01 0xFF 0xFF 2) rig = (.badParam, []) ∧ said 0 (fetch 0x11 0 0 1) busy = (.busy, []) ∧ said 0 (fetch 0x11 0 0 1) gone = (.busy, [])
      ∧ said 0 (fetch 0x11 0 0 1) rig = (.linkNotUp, []) ∧ said 0 (fetch 0x04 0 0 1) rig = (.nodeNotPresent, [])
      ∧ said 0 (fetch 0x02 0 0 3) rig = (.badParam, []) ∧ said 0 (fetch 0x02 0xFF 0xFE 2) rig = (.accepted, [1]) := by decide +kernel

/-- DrainCoversOwnWrites: pending, nothing of host 0 to cover, and one record of host 2. -/
theorem witness_drain :
    let w := writes [record .queued false 1] rig
    let pending := w.modHost 2 fun hs => { hs with drain := some { counter := 1, covered := 1, failed := 0 } }
    said 2 (.drain 2 [0]) pending = (.busy, []) ∧ said 0 (.drain 0 [0]) w = (.ok, [0, 0, 0]) ∧ said 2 (.drain 2 [0]) w = (.accepted, [0, 0, 1]) := by
  decide +kernel

/-! ## Claim commands -/

/-- ClaimAndRenew: bad parameters, a free record, the holder, a waiter at position 2, a new waiter (R67). Lease 255 ends at 2550. -/
theorem witness_claims :
    let c := claimed 0 [{ host := 1, lease := 2 }, { host := 2, lease := 2 }] rig
    said 0 (.claim 0 [0, 1]) rig = (.badParam, []) ∧ said 0 (.claim 0 [1, 0]) rig = (.badParam, []) ∧ said 0 (.renew 0 [1, 0]) rig = (.badParam, [])
      ∧ said 0 (.claim 0 [1, 255]) rig = (.granted, [9, 0xF6]) ∧ said 0 (.claim 0 [1, 1]) c = (.alreadyHeld, [3, 0xE8])
      ∧ said 2 (.claim 2 [1, 1]) c = (.alreadyWaiting, [2]) ∧ said 1 (.claim 1 [1, 1]) (claimed 0 [] rig) = (.waiting, [1])
      ∧ said 0 (.renew 0 [1, 1]) c = (.ok, [0, 10]) ∧ said 1 (.renew 1 [1, 1]) c = (.notHolder, []) := by decide +kernel

/-- UnclaimReleasesOrWithdraws: every place the host may have. -/
theorem witness_unclaim :
    let c := claimed 0 [{ host := 1, lease := 2 }] rig
    said 0 (.unclaim 0 [0]) c = (.badParam, []) ∧ said 0 (.unclaim 0 [1]) (claimed 0 [] rig) = (.ok, [1]) ∧ said 0 (.unclaim 0 [1]) c = (.ok, [1])
      ∧ ((after (.unclaim 0 [1]) c).claims.get 0).holder = some { host := 1, lease := 2, leaseEnd := 20 }
      ∧ said 1 (.unclaim 1 [1]) c = (.ok, [2]) ∧ said 2 (.unclaim 2 [1]) c = (.notHolder, []) := by decide +kernel

/-! ## Queries, host clearing, setup commands -/

/-- QueryNodeAndLinkAnswer: bad references and pages; each page, packed as R172 says. -/
theorem witness_queries :
    let c := claimed 0 [{ host := 1, lease := 2 }] rig
    said 2 (.queryNode 2 [0x05, 0]) rig = (.badParam, []) ∧ said 2 (.queryNode 2 [0x01, 2]) rig = (.badParam, [])
      ∧ said 2 (.queryNode 2 [0x03, 0]) rig = (.ok, [0x31, 3, 1, 1, 2, 2, 1, 8, 0, 0]) ∧ said 2 (.queryNode 2 [0x04, 0]) rig = (.ok, [3, 0, 0, 0, 0, 0, 0, 0, 0, 0])
      ∧ said 2 (.queryNode 2 [0x01, 1]) c = (.ok, [0, 0, 0, 0, 0, 0, 9, 3, 0xE8, 0xF1]) ∧ said 2 (.queryLink 2 [2, 0]) rig = (.badParam, [])
      ∧ said 2 (.queryLink 2 [1, 2]) rig = (.badParam, []) ∧ said 2 (.queryLink 2 [0, 0]) rig = (.ok, [3, 0, 0, 0, 20, 3, 0, 0, 2, 0])
      ∧ said 2 (.queryLink 2 [1, 1]) rig = (.ok, [0, 0, 0, 0, 0, 0, 0, 0]) := by decide +kernel

/-- ClearHostClearsOwnShare: an entry host 0 shares, one it holds alone, a free slot, a write, a claim. -/
theorem witness_clear_host :
    let s := claimed 2 [] (writes [record .queued false 1] (put 6 { slot5 with first := 0x40, holders := #v[none, c1, c1] } (put 5 { slot5 with holders := #v[none, none, c1] } rig)))
    (s.judged .clearHost 2 [0]).claimsOk ∧ said 2 (.clearHost 2 [0]) s = (.ok, [2, 1, 1])
      ∧ (after (.clearHost 2 [0]) s).slots.get 5 = { generation := 1, entry := none } := by decide +kernel

/-- R76, R156: the head waiter of a claim of the cleared host is granted it and told, with the other waiter left. -/
theorem test_clear_host_grants_waiter :
    let t := after (.clearHost 2 [0]) (claimed 2 [{ host := 0, lease := 5 }, { host := 1, lease := 6 }] rig)
    t.claims.get 0 = { holder := some { host := 0, lease := 5, leaseEnd := 50 }, waiters := [{ host := 1, lease := 6 }] }
      ∧ (t.hosts.get 0).events.map EventRecord.kind = [.claimGranted] ∧ (t.hosts.get 1).events = [] := by decide +kernel

/-- SetClassPeriodReplacesPeriod: NOTICE, a period that is no power of two, the old period, the greatest. -/
theorem witness_class_period :
    (0 : Sys2Proof.Host) = rig.setupHost ∧ said 0 (.setClassPeriod 0 [4, 0, 8]) rig = (.badParam, []) ∧ said 0 (.setClassPeriod 0 [3, 0, 1]) rig = (.badParam, [])
      ∧ said 0 (.setClassPeriod 0 [3, 8, 0]) rig = (.badParam, []) ∧ said 0 (.setClassPeriod 0 [3, 4, 0]) rig = (.ok, [4, 0])
      ∧ said 0 (.setClassPeriod 0 [0, 4, 0]) rig = (.ok, [0, 8]) ∧ (∃ k : Nat, 1 ≤ k ∧ k ≤ 10 ∧ (word16 4 0).toNat = 2 ^ k) :=
  ⟨by decide +kernel, by decide +kernel, by decide +kernel, by decide +kernel, by decide +kernel, by decide +kernel, 10, by decide⟩

/-- LinkSettingsAndStart, LinkStopLeavesService: bounds of the parameters, and every link state. -/
theorem witness_links :
    let down := rig.modLink 1 fun k => { k with state := .down }
    said 0 (.setLinkTiming 0 [2, 1, 0, 0]) rig = (.badParam, []) ∧ said 0 (.setLinkTiming 0 [1, 0, 0, 0]) rig = (.badParam, [])
      ∧ said 0 (.setLinkTiming 0 [1, 1, 8, 0]) rig = (.badParam, []) ∧ said 0 (.setLinkTiming 0 [1, 1, 7, 2]) rig = (.badParam, [])
      ∧ said 0 (.setLinkTiming 0 [1, 255, 7, 1]) rig = (.ok, []) ∧ said 0 (.linkStart 0 [2]) rig = (.badParam, []) ∧ said 0 (.linkStart 0 [0]) rig = (.busy, [])
      ∧ said 0 (.linkStart 0 [1]) down = (.ok, [4]) ∧ said 0 (.linkStop 0 [2]) rig = (.badParam, []) ∧ said 0 (.linkStop 0 [1]) rig = (.ok, [0])
      ∧ said 0 (.linkStop 0 [1]) down = (.ok, [4]) ∧ said 0 (.linkStop 0 [1]) (training 0 rig) = (.ok, [1]) ∧ said 0 (.linkStop 0 [0]) rig = (.ok, [3]) := by
  decide +kernel

/-- Link 0 with a poll and a WRITE in flight to node 0.1, a QUEUED write of it behind, a HELD one of node 0.3, and a pending fetch. -/
def busy : State :=
  let write := { reading with kind := .write }
  ((flying reading (writes [record .outstanding true 1, record .queued false 2, { record .held false 3 with node := 2 }] rig)).modArbiter 0
    fun a => { a with tags := upd a.tags 1 fun _ => { round := 2, request := some write },
                      fetches := [{ host := 1, ticket := 4, node := 0, address := 0, length := 1, reported := true }] })

/-- DepartureEndsLinkWork, LeavingPresentEndsNodeWork, IdentEndingDecidesPresence: a state with every kind of record in accord. -/
theorem witness_traffic :
    busy.trafficOk ∧ busy.outstandingOk ∧ busy.pollsOk ∧ busy.presence 0 = .present
      ∧ ((busy.nodes.get 2).presence = .identifying ∧ (busy.nodes.get 2).cause = some .restart) ∧ (busy.nodes.get 3).presence ≠ .identifying :=
  ⟨⟨by decide +kernel, by decide +kernel, by decide +kernel, by decide +kernel, by decide +kernel, by decide +kernel, by decide +kernel⟩,
    by decide +kernel, by decide +kernel, by decide +kernel⟩

def told (h : Sys2Proof.Host) (s : State) : List (EventKind × Byte) := (s.hosts.get h).events.map fun e => (e.kind, e.reason)

/-- With requests only, and with writes only, one owner reports, and no order of owners is open. -/
def onlyFlying : State := busy.modWrites 0 fun q => { q with order := q.order.take 1 }
def onlyQueued : State := writes [record .queued false 2, { record .held false 3 with node := 2 }] rig

/-- R60, R104, R124: a link going DOWN after bad frames (ERRORS): LINK_DOWN first, then the endings with LINK_DOWN. -/
theorem test_departure_tells :
    let t := departLink 0 .down .errors onlyFlying
    told 0 t = [(.linkDown, Reason.errors.code)] ∧ told 1 t = [(.linkDown, Reason.errors.code), (.fetchDone, Reason.linkDown.code)]
      ∧ told 2 t = [(.linkDown, Reason.errors.code), (.writeFailed, Reason.linkDown.code)]
      ∧ told 2 (departLink 0 .off .stopped onlyQueued) =
          (.linkDown, Reason.stopped.code) :: List.replicate 2 (.writeFailed, Reason.stopped.code) := by decide +kernel

/-- R129: the fetch that a departure ends leaves its ticket, reason, node, address and length, and no data. -/
theorem test_departure_fetch_buffer :
    ((departLink 0 .down .errors onlyFlying).hosts.get 1).fetchBuffer =
        some { ticket := 4, status := .linkDown, node := 0, address := 0, length := 1, data := [] }
      ∧ ((departLink 0 .down .errors onlyFlying).hosts.get 0).fetchBuffer = none := by decide +kernel

/-- R97, R123: a node's copy behind another node's has not begun: it is withdrawn, and the other stays; with a frame on the line
every copy of the node is withdrawn and that frame goes on. -/
theorem test_leave_withdraws_copies :
    let other := { reading with node := 1, frame := .toSend }
    let two := onlyFlying.modArbiter 0 fun a => { a with tags := upd a.tags 2 fun _ => { round := 0, request := some other }, txOrder := [2, 0, 1] }
    let line := onlyFlying.modArbiter 0 fun a => { a with txOrder := [0, 1], onLine := some syncBytes }
    let left (s : State) := let a := (leavePresent 0 .absent none .nodeLost s).arbiters.get 0; (a.txOrder, a.onLine)
    left two = ([2], none) ∧ left line = ([], some syncBytes) := by decide +kernel

/-- R80: a quarantined node ends its WRITEs with QUARANTINED and its fetches with NODE_LOST. -/
theorem test_quarantine_tells :
    let t := leavePresent 0 .quarantined none .quarantined onlyFlying
    told 1 t = [(.fetchDone, Reason.nodeLost.code)] ∧ told 2 t = [(.writeFailed, Reason.quarantined.code)]
      ∧ told 2 (leavePresent 0 .quarantined none .quarantined onlyQueued) = [(.writeFailed, Reason.quarantined.code)] := by decide +kernel

/-- R57, R80: a restart with a QUEUED write that no request carries: it is HELD, and the entry SUSPENDED with its age. -/
theorem test_restart_holds_write :
    let t := leavePresent 0 .identifying (some .restart) .nodeRestarted (writes [record .queued false 1] rig)
    (t.writeQueues.get 0).order = [record .held false 1] ∧ t.entry 5 = some { slot5 with state := .suspended } := by decide +kernel

/-- R21, R25, R38: a poll in flight with a repoll mark, and one queued, end SUSPENDED and IDLE at a departure, holders, age and data
kept, the epoch raised by the failed WRITE; a node that leaves takes no other node's item with it. -/
theorem test_departure_entries :
    let s := (rigQ.modEntry 5 fun e => { e with repoll := true })
    let two := s.modPolls 0 fun q => { slot := 5, generation := 0 } :: q
    let gone := fun (e : Entry) (n : Word16) => { e with state := .suspended, phase := .idle, epoch := e.epoch + n, repoll := false }
    let t := departLink 0 .down .errors (writes [] s)
    t.entry 5 = some (gone slot5 0) ∧ t.entry 6 = some (gone { slot5 with node := 1, first := 0x40 } 0) ∧ t.pollQueues.get 0 = []
      ∧ ((departLink 0 .down .errors onlyFlying).entry 5) = some (gone slot5 1)
      ∧ (leavePresent 0 .absent none .nodeLost (writes [] two)).pollQueues.get 0 = [{ slot := 6, generation := 0 }] := by
  decide +kernel

/-- PinAndUnpinDecidePresence: every presence, with a pin that agrees and one that does not. -/
theorem witness_pins :
    let q := rig.modNode 3 (node .quarantined none (identity 8 true))
    said 0 (.pinNode 0 [0, 1, 1, 2, 2]) rig = (.badParam, []) ∧ said 0 (.unpinNode 0 [0]) rig = (.badParam, [])
      ∧ said 0 (.pinNode 0 [1, 1, 1, 2, 2]) rig = (.ok, [2]) ∧ said 0 (.pinNode 0 [1, 1, 1, 2, 3]) rig = (.ok, [4])
      ∧ said 0 (.pinNode 0 [4, 1, 1, 2, 2]) q = (.ok, [1]) ∧ said 0 (.pinNode 0 [4, 0, 1, 2, 2]) q = (.ok, [4])
      ∧ said 0 (.pinNode 0 [0x11, 1, 1, 2, 2]) rig = (.ok, [0]) ∧ said 0 (.pinNode 0 [4, 1, 1, 2, 2]) rig = (.ok, [3])
      ∧ said 0 (.pinNode 0 [3, 0, 0, 0, 0]) rig = (.ok, [1]) ∧ said 0 (.unpinNode 0 [4]) q = (.ok, [1]) ∧ said 0 (.unpinNode 0 [4]) rig = (.ok, [3]) := by
  decide +kernel

/-! ## The millisecond event and what it brings -/

/-- MillisecondAdvancesCount: no part open before; R40: an age of 65535 stays. -/
theorem test_millisecond :
    rig.due = EventParts.noneDue ∧ (after .millisecondEvent rig).timeBase = 1
      ∧ ((after .millisecondEvent (rig.modEntry 5 fun e => { e with age := 65535 })).entry 5).map Entry.age = some 65535 := by decide +kernel

/-- ClassTickQueuesDueEntries, StaleCheckJudgesEveryEntry: parts open and taken; R32: C1 (32 ms) ticks at 32; R41: stale at 96. -/
theorem witness_ticks :
    let s := { rig with timeBase := 32, due := EventParts.allDue }
    let old := s.modEntry 5 fun e => { e with age := 96 }
    rig.due.ticks = false ∧ s.due.ticks = true ∧ ((after .classTick s).entry 5).map Entry.phase = some .inFlight ∧ rig.due.stale = false
      ∧ old.due.stale = true ∧ (old.entry 5).map old.pastLimit = some true ∧ ((after .staleLimitReached old).entry 5).map Entry.state = some .stale
      ∧ ((after .staleLimitReached s).entry 5).map Entry.state = some .valid := by decide +kernel

/-- R6: the shortest present period, the lower number of equal ones, NOTICE as C3 at a node that sends none, NOTICE where all are. -/
theorem test_effective_class :
    let asks := fun (n : Node) (cs : List RateClass) =>
      { slot5 with node := n, holders := Vector.ofFn fun h => cs[h.val]?.map fun c => { cls := c, watch := none } }
    let tie := { rig with periods := #v[64, 32, 32, 16] }
    rig.effective (asks 0 [.notice, .timed 2, .timed 1]) = .timed 1 ∧ rig.effective (asks 0 [.notice, .notice]) = .notice
      ∧ rig.effective (asks 1 [.notice]) = .timed 3 ∧ rig.effective (asks 3 [.notice, .timed 2]) = .timed 2
      ∧ tie.effective (asks 0 [.timed 2, .timed 1, .timed 0]) = .timed 1 ∧ tie.effective (asks 1 [.timed 1, .notice]) = .timed 3
      ∧ tie.effective (asks 0 [.timed 1, .notice]) = .timed 1 := by decide +kernel

/-- LeaseExpiryPassesClaims: the check taken and open; R72: at count 1000 host 1's lease of 20 ms starts. -/
theorem witness_leases :
    let s := rigTime (claimed 0 [{ host := 1, lease := 2 }] rig)
    rig.due.leases = false ∧ s.due.leases = true
      ∧ ((after .leaseExpiry s).claims.get 0).holder = some { host := 1, lease := 2, leaseEnd := 1020 }
      ∧ (((after .leaseExpiry s).hosts.get 0).events.map EventRecord.kind) = [.claimExpired] := by decide +kernel

/-- LinkTimersJudged: every case of deadline, silence (4 and 5) and hold-off end. -/
theorem witness_link_timers :
    let t := rigTime (training 0 rig)
    let quiet (n : Nat) := (rigTime rig).modLink 0 fun k => { k with silence := n }
    let held' (a : Bool) := (rigTime rig).modLink 1 fun k => { k with state := .down, holdOff := some 1000, autoRestart := a }
    rig.due.deadline.get 1 = false ∧ rig.due.silence.get 0 = false ∧ rig.due.holdOff.get 1 = false ∧ (rigTime rig).due.holdOff.get 1 = true
      ∧ (after (.trainingDeadline 1) t).linkState 1 = .down ∧ (after (.trainingDeadline 1) { t with timeBase := 999 }).linkState 1 = .training
      ∧ (after (.silenceDetected 0) (quiet 5)).linkState 0 = .down ∧ (after (.silenceDetected 0) (quiet 4)).linkState 0 = .up
      ∧ (after (.holdOffEnd 1) (held' true)).linkState 1 = .training ∧ (after (.holdOffEnd 1) (held' false)).linkState 1 = .down
      ∧ (after (.holdOffEnd 1) (rigTime rig)).linkState 1 = .off := by decide +kernel

/-! ## Sending, timers, frames -/

/-- FrameSentStartsTimer: no copy, so a SYNC; a frame begun; R173: a READ of 2 registers at 0x0020 with tag 0, round 1; R97: SYNC
frames in TRAINING, nothing in OFF. -/
theorem witness_frame_sent :
    let s := (flying { reading with frame := .toSend, sentOnce := false, timer := none, settings := none } rig).modArbiter 0 fun a => { a with txOrder := [0] }
    let begun := s.modArbiter 0 fun a => { a with onLine := some helloBytes }
    let shown := fun (l : Link) (s : State) => ((after (.frameSent l) s).arbiters.get l).sentFrame
    let read : List Byte := [0xA5, 2, 6, 1, 0x10, 1, 0, 0x20, 2, 0x0E, 0x57]
    (rig.linkState 0 = .up ∧ (rig.arbiters.get 0).onLine = none ∧ (rig.arbiters.get 0).txOrder = [] ∧ shown 0 rig = syncBytes)
      ∧ ((s.arbiters.get 0).txOrder = [0] ∧ (s.request 0 0).isSome = true ∧ s.transmits 0 = some read ∧ shown 0 s = read)
      ∧ (begun.transmits 0 = some helloBytes ∧ shown 0 begun = helloBytes ∧ (after (.frameSent 0) begun).request 0 0 = s.request 0 0)
      ∧ (after (.frameSent 0) s).request 0 0 = some reading
      ∧ ((training 0 rig).transmits 1 = some syncBytes ∧ shown 1 (training 0 rig) = syncBytes)
      ∧ (rig.linkState 1 = .off ∧ rig.transmits 1 = none ∧ shown 1 rig = []) := by decide +kernel

/-- TimerExpiryResendsOrEnds: a free tag, TO_SEND, one retry left, none left. -/
theorem witness_timer :
    let s (n : Nat) := flying { reading with retriesUsed := n } rig
    rig.request 0 0 = none ∧ (flying { reading with frame := .toSend } rig).request 0 0 = some { reading with frame := .toSend } ∧ reading.settings = some { timeout := 20, retryLimit := 3 }
      ∧ ((after (.responseTimerExpiry 0 0) (s 2)).request 0 0).map Request.retriesUsed = some 3
      ∧ ((after (.responseTimerExpiry 0 0) (s 3)).entry 5).map Entry.fault = some .timeout := by decide +kernel

/-- BadAndSyncFrames: a link out of service; no marker, a header cut short, a frame cut short, a wrong CRC, a kind not received, a
SYNC with a body; the seventh and eighth bad frame; the third and fourth SYNC, with a byte before and a byte beyond. -/
theorem witness_sync :
    let bad (bs : List Byte) := ((after (bytesOn 0 bs) rig).links.get 0).badFrames = 1
    rig.linkState 1 = .off ∧ after (bytesOn 1 []) rig = rig ∧ ((after (bytesOn 1 []) (training 0 rig)).links.get 1).lastReason = .errors
      ∧ (bad [3] ∧ bad [3, 0xA5, 1] ∧ bad [0xA5, 1, 0, 0x2E] ∧ bad [0xA5, 1, 0, 0x2E, 0x3F] ∧ bad [0xA5, 7, 0, 0x84, 0x98]
        ∧ bad [0xA5, 1, 1, 0, 0xC8, 0x9D])
      ∧ ((after (bytesOn 0 []) (rig.modLink 0 fun k => { k with consecutiveBad := 6 })).links.get 0).consecutiveBad = 7
      ∧ (after (.syncFrame 1) (training 2 rig)).linkState 1 = .training
      ∧ (after (bytesOn 1 (7 :: syncBytes ++ [9])) (training 3 rig)).linkState 1 = .enumerating
      ∧ ((after (bytesOn 1 (7 :: syncBytes ++ [9])) (training 3 rig)).links.get 1).received = [9]
      ∧ (after (.syncFrame 1) (training 3 rig)).presence 7 = .identifying := by decide +kernel

/-- ResponseMatchedOrStray: every link state; a body too short and too long, a node and a status out of range (R98); a stray round and a
stray length, a match, BUSY with a retry left (no second copy joins one that waits; the node's IDENT is granted tag 1) and without (R117 to R120). -/
theorem witness_response :
    let s := flying reading rig
    let last := flying { reading with retriesUsed := 3 } rig
    let bad (body : List Byte) := ((after (bytesOn 0 (frameBytes 0x03 body)) s).links.get 0).badFrames = 1
    let resp (r : BitVec 2) (st : Byte) (d : List Byte) := Instr.responseFrame 0 0 r 1 st d
    let strays (r : BitVec 2) (d : List Byte) := ((after (resp r 0 d) s).links.get 0).strays
    (frameNode 0 1 = some 0 ∧ responseStatus 3 = some .busy ∧ after (.responseFrame 1 0 1 1 0 []) rig = rig
        ∧ ((after (.responseFrame 1 0 1 1 0 []) (training 3 rig)).links.get 1).syncRun = 0)
      ∧ (bad [0x10, 1] ∧ bad ([0x10, 1, 0] ++ List.replicate 9 0) ∧ bad [0x10, 0, 0] ∧ bad [0x10, 5, 0] ∧ bad [0x10, 1, 4])
      ∧ (strays 2 [1, 2] = 1 ∧ strays 1 [1] = 1 ∧ strays 1 [1, 2] = 0)
      ∧ ((after (resp 1 0 [1, 2]) s).entry 5).map Entry.data = some [some 1, some 2]
      ∧ ((after (resp 1 3 []) s).request 0 0).map Request.retriesUsed = some 1 ∧ ((after (resp 1 3 []) s).arbiters.get 0).txOrder = [0, 1]
      ∧ (after (resp 1 3 []) (s.modArbiter 0 fun a => { a with txOrder := [0] })).arbiters = (after (resp 1 3 []) s).arbiters
      ∧ ((after (resp 1 3 []) last).entry 5).map Entry.state = some .valid
      ∧ ((after (resp 1 1 []) s).entry 5).map Entry.state = some .failed := by decide +kernel

/-! ## Endings -/

/-- EndedRequestReachesOwner: a copy that is not the next to be sent, and one that is; an IDENT; a poll, fetches and a write as owners;
BUSY, an answer, a second and third TIMEOUT, and a discarded one. -/
theorem witness_ended :
    let s := writes [record .outstanding false 1] (flying reading rig)
    let two := s.modNode 0 fun k => { k with timeouts := 2 }
    let gone := s.modSlot 5 fun sl => { sl with generation := 1 }
    let write := { reading with kind := .write }
    let waits := s.modArbiter 0 fun a => { a with txOrder := [0] }
    let fetch (b : Bool) := { reading with kind := .fetch 1 4 b }
    ((s.arbiters.get 0).txOrder.head? = none ∧ (waits.arbiters.get 0).txOrder.head? = some 0 ∧ (waits.arbiters.get 0).onLine = none)
      ∧ (endRequest 0 0 { reading with kind := .ident, node := 2 } .timeout [] s).presence 2 = .absent ∧ s.presence 0 = .present
      ∧ (∀ x ∈ (s.writeQueues.get 0).order, x.node = write.node → x.state = .outstanding → x = record .outstanding false 1)
      ∧ ((endRequest 0 0 write .ok [] two).nodes.get 0).timeouts = 0 ∧ ((endRequest 0 0 write .busy [] two).nodes.get 0).timeouts = 2
      ∧ ((endRequest 0 0 (fetch true) .ok [1, 2] s).hosts.get 1).fetchBuffer.isSome = true ∧ ((endRequest 0 0 (fetch false) .ok [1, 2] s).hosts.get 1).fetchBuffer = none
      ∧ ((endRequest 0 0 reading .timeout [] s).nodes.get 0).timeouts = 1 ∧ ((endRequest 0 0 reading .timeout [] gone).nodes.get 0).timeouts = 0
      ∧ (endRequest 0 0 (fetch false) .timeout [] (two.modWrites 0 fun q => { q with order := [] })).presence 0 = .absent := by decide +kernel

/-- PollEndingsApplied: every outcome; section 1.5's example: the epoch differs and the data is discarded (R19). -/
theorem witness_poll_endings :
    let s := flying reading rig
    let ended (o : Reason) (t : State) := ((applyPollEnding 5 0 0 0x0020 2 7 o [1, 2] t).entry 5).map fun e => [e.state.code, e.phase.code, ((e.data[0]?).join).getD 0]
    let marked := s.modEntry 5 fun e => { e with repoll := true }
    (ended .ok s = some [2, 0, 1] ∧ ended .ok marked = some [3, 1, 1] ∧ ended .ok (s.modEntry 5 fun e => { e with epoch := 8 }) = some [2, 1, 0x12]
      ∧ ended .ok (s.modEntry 5 fun e => { e with state := .suspended }) = some [5, 0, 0x12])
      ∧ ended .badAddress s = some [4, 0, 0x12] ∧ ended .timeout marked = some [4, 1, 0x12] ∧ ended .busy s = some [2, 0, 0x12]
      ∧ ended .nodeLost marked = some [2, 1, 0x12] ∧ ended .ok (s.modSlot 5 fun sl => { sl with generation := 1 }) = some [2, 2, 0x12] := by decide +kernel

/-- WriteEndingReportsAndFrees, WriteOutcomesReachTouchedEntries: a covered record, the last of two and the last one; an entry that is
touched. R22: a covering write. -/
theorem witness_write_endings :
    let pend := fun s : State => s.modHost 2 fun hs => { hs with drain := some { counter := 1, covered := 2, failed := 0 } }
    let two := pend (writes [record .outstanding true 1, record .queued true 2] rig)
    let one := pend (writes [record .outstanding true 1] rig)
    let kinds (s : State) := (s.hosts.get 2).events.map EventRecord.kind
    (record .outstanding true 1).covered = true ∧ (record .outstanding false 1).covered = false
      ∧ (two.hosts.get 2).drain = some { counter := 1, covered := 2, failed := 0 }
      ∧ kinds (finishWrite 0 (record .outstanding true 1) .timeout two) = [.writeFailed] ∧ kinds (finishWrite 0 (record .outstanding true 1) .timeout one) = [.writeFailed, .drainDone]
      ∧ rangesShare 0x20 2 slot5.first.toNat slot5.length = true
      ∧ (mirrorWriteOk 0 0x0020 [0x56, 0x78] rig).entry 5 = some { slot5 with data := [some 0x56, some 0x78], epoch := 8, age := 0 }
      ∧ ((mirrorWriteFailed 0 0x0021 1 rig).entry 5).map Entry.state = some .stale := by decide +kernel

/-- NoticeAndHelloFrames: bounds of the fields and a body of the wrong length; every link state and presence; a notice in sequence and
after a gap (R24, R125). -/
theorem witness_notices :
    let stale (c : Byte) (a : Word16) := ((after (.noticeFrame 0 1 c a 16) rig).entry 5).map Entry.state
    let bad (i : Instr) := ((after i rig).links.get 0).badFrames = 1
    (bad (.noticeFrame 0 5 1 0 1) ∧ bad (.noticeFrame 0 1 16 0 1) ∧ bad (.noticeFrame 0 1 1 0 0) ∧ bad (.noticeFrame 0 1 1 0 17) ∧ bad (.helloFrame 0 0) ∧ bad (.helloFrame 0 5)
        ∧ bad (bytesOn 0 (frameBytes 0x04 [1])) ∧ bad (bytesOn 0 (frameBytes 0x05 [])))
      ∧ after (.helloFrame 1 1) rig = rig ∧ frameNode 1 4 = some 7
      ∧ ((after (.noticeFrame 1 1 15 0 16) (training 3 rig)).links.get 1).syncRun = 0 ∧ rig.presence 3 ≠ .present
      ∧ stale 1 0x0011 = some .stale ∧ stale 1 0x0010 = some .valid ∧ stale 2 0x0010 = some .stale
      ∧ (after (.helloFrame 0 4) rig).presence 3 = .identifying ∧ (after (.helloFrame 0 1) rig).presence 0 = .identifying
      ∧ (after (.helloFrame 0 3) rig).presence 2 = .identifying := by decide +kernel

/-- IdentEndingDecidesPresence: no answer, a pin that differs, an identity that is the same, new, and changed; R84: max length 0 is 1. -/
theorem witness_idents :
    let data : List Byte := [1, 1, 2, 2, 1, 0x10, 3, 0]
    let s := (put 6 { slot5 with node := 2, state := .suspended } rig)
    let pinned := s.modNode 2 fun r => { r with pin := some { vendor := 0x0101, model := 0x0203 } }
    (identEnded 2 .busy [] s).presence 2 = .absent ∧ (((identEnded 2 .busy [] s).hosts.get 0).events.map EventRecord.kind) = [.nodeLost]
      ∧ (identEnded 2 .ok data pinned).presence 2 = .quarantined ∧ (identEnded 2 .ok data s).presence 2 = .present ∧ (identEnded 2 .ok data s).maxLength 2 = 1
      ∧ ((identEnded 2 .ok data s).entry 6).map Entry.fault = some .tooLong
      ∧ (((identEnded 2 .ok data (s.modNode 2 fun r => { r with identity := none })).hosts.get 0).events.head?.map EventRecord.kind) = some .nodeArrived
      ∧ (((identEnded 2 .ok (data.set 4 2) s).hosts.get 0).events.head?.map EventRecord.kind) = some .nodeChanged := by decide +kernel

/-- R58, R81, R86: the held writes of a node that arrives: one too long fails with TOO_LONG, the other is QUEUED again in its place; the
last enumeration IDENT of a link brings LINK_UP with its three PRESENT nodes. -/
theorem test_arrival_releases_writes :
    let h (n : Nat) (seq : Word16) := { record .held false seq with node := 2, data := List.replicate n 1 }
    let s := (writes [h 1 1, h 2 2] rig).modNode 2 fun r => { r with cause := some .enumeration }
    let t := identEnded 2 .ok [1, 1, 2, 2, 1, 0x11, 3, 0] (s.modLink 0 fun k => { k with state := .enumerating })
    (t.writeQueues.get 0).order = [{ h 1 1 with state := .queued }]
      ∧ told 2 t = [(.nodeArrived, 0), (.writeFailed, Reason.tooLong.code), (.linkUp, 0)]
      ∧ (t.hosts.get 0).events.map EventRecord.value = [0x0202, 3] := by decide +kernel

/-! ## Events and watches -/

/-- EventArrivalStoredOrCounted: masked, counted and counted apart, the 15th, the 16th; an entry event of a held entry. -/
theorem witness_events :
    let b := eventOf .linkUp 1 0 3
    let full := events [eventAt .overflow] rig
    let read := open' (.controlRead 0x10 (full.controlCopy 2) 1) 2 full
    let many (n : Nat) := events (List.replicate n (eventAt .linkUp)) rig
    EventKind.linkUp.maskBit = some 9 ∧ (((rig.modHost 2 fun hs => { hs with mask := 0x0200 }).hosts.get 2).mask.getLsbD 9) = true
      ∧ ((notify 2 b full).hosts.get 2).events = [{ eventAt .overflow with value := 4 }] ∧ ((notify 2 b full).hosts.get 2).countedApart = 0
      ∧ ((notify 2 b read).hosts.get 2).countedApart = 1 ∧ ((notify 2 b (many 14)).hosts.get 2).events.length = 15
      ∧ (((notify 2 b (many 15)).hosts.get 2).events.getLast?.map EventRecord.kind) = some .overflow ∧ rig.entry 5 = some slot5 := by decide +kernel

/-- WatchEvaluatedAgainstBand: no data, below, at each limit, above (R165). -/
theorem witness_watch_zones :
    let w : Watch := { low := 0x1234, high := 0x1235, zone := .unknown }
    w.zoneOf 0x1233 = .below ∧ w.zoneOf 0x1234 = .inside ∧ w.zoneOf 0x1235 = .inside ∧ w.zoneOf 0x1236 = .above
      ∧ numberOf (slot5.data.filterMap id) = 0x1234 ∧ slot5.hasData = true ∧ { slot5 with data := [none] }.hasData = false
      ∧ (slot5.holders.get 0).isSome = true := by decide +kernel

/-! ## The host ports -/

/-- AddressBytesDecoded: every kind of open transaction (R132, R150); no match; a read that is not strict, one that is fresh, one that
is not. -/
theorem witness_address_bytes :
    let strict := rig.modHost 2 fun hs => { hs with aliases := upd hs.aliases 0 fun _ => some (window true) }
    let past := strict.modHost 2 fun hs => { hs with pointer := 2 }
    let outcome (s : State) := ((after (.aliasReadAddressByte 2 0x30) s).hosts.get 2).answer
    let ends (t : Transaction) := endTransaction 2 (events [eventAt .linkUp] (reserve [7] none (open' t 2 rig)))
    (((ends (.controlWrite (some 0x80) [1])).hosts.get 2).result.status = .badParam ∧ (ends (.controlWrite (some 0x80) [])).transaction 2 = .idle
        ∧ (ends .idle).transaction 2 = .idle ∧ (ends .ignored).transaction 2 = .idle
        ∧ ((ends (.controlRead 0x10 (((events [eventAt .linkUp] rig).controlCopy 2)) 12)).hosts.get 2).events = []
        ∧ ((ends (.aliasWrite 0 (window false) (.data 1))).writeQueues.get 0).order.length = 1
        ∧ ((ends (.aliasRead 0 (window false) 0 [] 1 1)).hosts.get 2).report.bytesRead = 1)
      ∧ ((after (.addressNotAcknowledged 0 0x30 .read) rig).hosts.get 0).answer = .nack ∧ outcome rig = .ack ∧ outcome strict = .ack ∧ outcome past = .nack
      ∧ ((after (.aliasReadAddressByte 2 0x30) past).hosts.get 2).report.outcome = .refused := by decide +kernel

/-- AliasWriteAcceptedOrRefused: the six refusals at their bounds, and the reservation. -/
theorem witness_alias_write_address :
    let outcome (s : State) := ((after (.aliasWriteAddressByte 2 0x30) s).hosts.get 2).answer
    let ro := rig.modHost 2 fun hs => { hs with aliases := upd hs.aliases 0 fun _ => some { window false with access := .readOnly } }
    let other := { record .queued false 1 with origin := 1 }
    outcome ro = .nack ∧ outcome (rig.modLink 0 fun k => { k with state := .enumerating }) = .nack ∧ outcome (rig.modNode 0 (node .absent none none)) = .nack
      ∧ outcome (claimed 1 [] rig) = .nack ∧ outcome (writes (List.replicate 6 (record .queued false 1)) rig) = .nack
      ∧ outcome (writes (List.replicate 16 other) rig) = .nack ∧ outcome (writes (List.replicate 5 (record .queued false 1) ++ List.replicate 10 other) rig) = .ack
      ∧ ((after (.aliasWriteAddressByte 2 0x30) (claimed 2 [] rig)).writeQueues.get 0).reserved = [reservationOf 2 0] := by decide +kernel

/-- WriteBytesJudged: each kind of transaction; the last window position and the one past it; the eighth byte and the ninth; the 16th
parameter byte and the 17th. -/
theorem witness_write_bytes :
    let w := window false
    let reg (b : Byte) := ((after (.registerByte 2 b) (reserve [] none (open' (.aliasWrite 0 w .register) 2 rig))).hosts.get 2).answer
    let data (k : Nat) (p : Nat) := ((after (.aliasWriteDataByte 2 1) (reserve (List.replicate k 1) none (open' (.aliasWrite 0 { w with size := 256 } (.data p)) 2 rig))).hosts.get 2).answer
    let ctl (a : Byte) (k : Nat) := ((after (.controlWriteDataByte 2 1) (open' (.controlWrite (some a) (List.replicate k 0)) 2 rig)).hosts.get 2).answer
    reg 3 = .ack ∧ reg 4 = .nack ∧ data 7 255 = .ack ∧ data 8 0 = .nack ∧ data 0 256 = .nack ∧ ctl 0x80 15 = .ack ∧ ctl 0x80 16 = .nack ∧ ctl 0x83 0 = .nack
      ∧ ((after (.registerByte 2 9) (open' (.controlWrite none []) 2 rig)).hosts.get 2).pointer = 9
      ∧ ((after (.aliasWriteDataByte 2 1) (open' (.aliasWrite 0 w .refused) 2 rig)).hosts.get 2).answer = .nack
      ∧ ((after (.controlWriteOtherPosition 2 1) (open' .ignored 2 rig)).hosts.get 2).answer = .nack := by decide +kernel

/-- AliasReadServedAndReported: a stored byte, one not stored, no entry, past the window; the report after two bytes (R144, R145). -/
theorem witness_alias_read :
    let snap := [slot5.snapshot, ({ slot5 with first := 0x0022, data := [none] } : Entry).snapshot]
    let s (sent : Nat) := open' (.aliasRead 0 (window false) 0 snap sent 1) 2 rig
    let byte (sent : Nat) := ((after (.aliasReadByte 2) (s sent)).hosts.get 2).answer
    byte 1 = .byte 0x34 ∧ byte 2 = .byte 0xFF ∧ byte 3 = .byte 0xFF ∧ byte 4 = .byte 0xFF
      ∧ ((after (.aliasReadEnd 2) (s 2)).hosts.get 2).report =
          { outcome := .served, slot := 0, first := 0x0020, bytesRead := 2, fillBytes := 1, worst := some .valid, oldest := 5, touched := 1 }
      ∧ ((after (.aliasReadEnd 2) (s 0)).hosts.get 2).report.worst = none := by decide +kernel

/-- ControlReadServedAndEventRemoved: the first and last positions of areas and a gap; a read one byte short, a whole one, and one
of an OVERFLOW record with losses counted apart (R161). -/
theorem witness_control_read :
    let ov := events [eventAt .overflow] rig
    let s := events [eventAt .linkUp] rig
    let reading (t : State) (sent : Nat) := open' (.controlRead 0x10 (t.controlCopy 2) sent) 2 t
    let byte (p : Nat) := ((after (.controlReadByte 2) (open' (.controlRead 0 (s.controlCopy 2) p) 2 s)).hosts.get 2).answer
    let left (t : State) := ((after (.controlReadEnd 2) t).hosts.get 2).events
    byte 0x0D = .byte 0 ∧ byte 0x10 = .byte 0x0F ∧ byte 0x1B = .byte 0 ∧ byte 0x20 = .byte 0 ∧ byte 0x3D = .byte 0 ∧ byte 0x40 = .byte 0x1A ∧ byte 0x45 = .byte 2
      ∧ byte 0x46 = .byte 0x2C ∧ byte 0x48 = .byte 0 ∧ byte 0x100 = .byte 0 ∧ left (reading s 11) = [eventAt .linkUp] ∧ left (reading s 12) = [] ∧ left (reading ov 12) = []
      ∧ (left ((reading ov 12).modHost 2 fun hs => { hs with countedApart := 4 })).map EventRecord.value = [4] := by decide +kernel

/-- AliasWriteEndTakesWrite: no reservation, no byte, taken (65535 goes on to 1), and failed at once (R47, R51, R52). -/
theorem witness_alias_write_end :
    let s := (open' (.aliasWrite 0 (window false) (.data 1)) 2 rig).modHost 2 fun hs => { hs with seqCounter := 65535 }
    let t (d : List Byte) (x : Option Reason) := after (.aliasWriteEnd 2) (reserve d x s)
    (s.writeQueues.get 0).reserved = [] ∧ ((t [] none).writeQueues.get 0).reserved = [] ∧ ((t [7] none).writeQueues.get 0).order.map WriteRecord.seq = [some 1]
      ∧ ((t [7] (some .linkDown)).hosts.get 2).events.map EventRecord.kind = [.writeFailed] ∧ ((t [7] (some .linkDown)).writeQueues.get 0).order = [] := by
  decide +kernel

end Sys2Proof.Machine.Tests
end

/-!
# The Mirror Table: its commands and its poll endings (Chapter 1)

First the rules about one entry put into its slot and about a poll asked for it, then one equation per outcome of each owning
rule, and last the statements, each assembled from these.
-/

namespace Sys2Proof.Machine

-- One proof at a time, as in the tests: a thread of its own for each would pass the memory limit of the check.
set_option Elab.async false

/-! ## An entry put into its slot -/

theorem upd_upd {α : Type} {n : Nat} (v : Vector α n) (i : Fin n) (f g : α → α) :
    upd (upd v i f) i g = upd v i fun x => g (f x) :=
  vector_ext_get fun j => by simp only [get_upd]; split <;> simp

/-- Two replacements of one place agree where they agree on its present value. -/
theorem upd_congr {α : Type} {n : Nat} (v : Vector α n) (i : Fin n) {f g : α → α} (h : f (v.get i) = g (v.get i)) :
    upd v i f = upd v i g := by
  simp only [upd, h]

/-- The entry `e` stands in slot `i`, whose generation is kept. -/
def State.putEntry (i : SlotIx) (e : Entry) (s : State) : State := s.modSlot i fun sl => { sl with entry := some e }

section
variable (i : SlotIx) (e e' : Entry) (s : State)

@[simp] theorem State.putEntry_entry_self : (s.putEntry i e).entry i = some e := by
  simp [State.putEntry, State.entry]

@[simp] theorem State.putEntry_generation (j : SlotIx) :
    ((s.putEntry i e).slots.get j).generation = (s.slots.get j).generation := by
  simp only [State.putEntry, State.modSlot_slots, get_upd]
  split <;> simp_all

theorem State.modSlot_modSlot (f g : Slot → Slot) : (s.modSlot i f).modSlot i g = s.modSlot i fun sl => g (f sl) := by
  simp only [State.modSlot, upd_upd]

@[simp] theorem State.putEntry_putEntry : (s.putEntry i e).putEntry i e' = s.putEntry i e' :=
  State.modSlot_modSlot ..

variable {s e}

theorem State.modSlot_congr {f g : Slot → Slot} (h : f (s.slots.get i) = g (s.slots.get i)) :
    s.modSlot i f = s.modSlot i g := by
  simp only [State.modSlot, upd_congr s.slots i h]

theorem State.modEntry_of_entry (he : s.entry i = some e) (f : Entry → Entry) : s.modEntry i f = s.putEntry i (f e) := by
  have hslot : (s.slots.get i).entry = some e := he
  exact State.modSlot_congr i (by simp [hslot])

end

/-! ## A poll asked for an entry just put (R8, R36) -/

/-- R36: the entry `e` stands QUEUED in slot `i`, its poll at the tail of its link's queue. -/
def State.putQueued (i : SlotIx) (e : Entry) (s : State) : State :=
  (s.putEntry i { e with phase := .queued }).modPolls (nodeLink e.node)
    (· ++ [{ slot := i, generation := (s.slots.get i).generation }])

theorem queuePoll_putEntry (i : SlotIx) {e : Entry} (s : State) (hidle : e.phase = .idle) :
    queuePoll i (s.putEntry i e) = if e.pollable then s.putQueued i e else s.putEntry i e := by
  have hput : ∀ (l : Link) (f : List PollItem → List PollItem), ((s.putEntry i e).modPolls l f).modEntry i
      (fun e => { e with phase := .queued }) = (s.putEntry i { e with phase := .queued }).modPolls l f := fun l f => by
    calc
      _ = ((s.putEntry i e).modEntry i fun e => { e with phase := .queued }).modPolls l f := rfl
      _ = _ := by rw [State.modEntry_of_entry i (State.putEntry_entry_self ..), State.putEntry_putEntry]
  simp only [queuePoll, State.putEntry_entry_self, State.putEntry_generation, hidle, decide_true, Bool.true_and, hput]
  rfl

theorem queuePoll_putEntry_pollable (i : SlotIx) {e : Entry} (s : State) (hidle : e.phase = .idle)
    (hp : e.pollable = true) : queuePoll i (s.putEntry i e) = s.putQueued i e := by
  rw [queuePoll_putEntry i s hidle, if_pos hp]

theorem Entry.pollable_of_state {e : Entry} (hs : e.state ≠ .suspended) (hf : e.state ≠ .failed) : e.pollable = true := by
  simp [Entry.pollable, Entry.tooLong, hs, hf]

theorem Entry.pollable_of_failed {e : Entry} (hs : e.state = .failed) (hf : e.fault ≠ .tooLong) : e.pollable = true := by
  simp [Entry.pollable, Entry.tooLong, hs, hf]

/-- One host's part of an entry event and a poll asked for the same entry can be taken in either order: the one reads the
holders and changes a host's record, the other changes the phase and the queue. -/
theorem queuePoll_notify (i : SlotIx) (h : Host) (b : EventBody) (s : State) :
    queuePoll i (notify h b s) = notify h b (queuePoll i s) := by
  have hentry : (notify h b s).entry i = s.entry i := rfl
  simp only [queuePoll, hentry]
  split
  · rfl
  · split <;> rfl

/-- Asking for a poll keeps the holders of every entry. -/
theorem queuePoll_holders (i j : SlotIx) (s : State) :
    ((queuePoll i s).entry j).map Entry.holders = (s.entry j).map Entry.holders := by
  rcases queuePoll_cases i s with h | ⟨e, -, -, -, h⟩
  · rw [h]
  · rw [h, State.modEntry_entry]
    split
    · next hj => subst hj; simp [Function.comp_def]
    · rfl

theorem queuePoll_entryEvent (i : SlotIx) (k : EventKind) (why : Reason) (s : State) :
    queuePoll i (entryEvent i k why s) = entryEvent i k why (queuePoll i s) := by
  unfold entryEvent forHosts
  refine (List.foldl_hom (queuePoll i) fun s h => ?_).symm
  have hhold := queuePoll_holders i i s
  cases he : s.entry i with
  | none => cases hq : (queuePoll i s).entry i <;> simp_all
  | some e =>
    cases hq : (queuePoll i s).entry i with
    | none => simp_all
    | some e' =>
      have hh : e'.heldBy h = e.heldBy h := by simp_all [Entry.heldBy]
      simp only [he, hq, hh]
      split
      · exact (queuePoll_notify ..).symm
      · rfl

/-! ## The entries a command looks for (R10, R11) -/

theorem State.findEntry_eq_some_iff (s : State) (p : Entry → Bool) (i : SlotIx) :
    s.findEntry p = some i ↔ (∃ e ∈ s.entry i, p e = true) ∧ ∀ j, j < i → ∀ e ∈ s.entry j, p e = false := by
  simp [State.findEntry, ← Fin.find?_eq_find?_finRange, Option.any_eq_true, Option.any_eq_false]

theorem State.findEntry_eq_none_iff (s : State) (p : Entry → Bool) :
    s.findEntry p = none ↔ ∀ j, ∀ e ∈ s.entry j, p e = false := by
  simp [State.findEntry, ← Fin.find?_eq_find?_finRange, Option.any_eq_false]

theorem State.lowestFreeSlot_eq_some_iff (s : State) (i : SlotIx) :
    s.lowestFreeSlot = some i ↔ s.entry i = none ∧ ∀ j, j < i → s.entry j ≠ none := by
  simp [State.lowestFreeSlot, ← Fin.find?_eq_find?_finRange, Option.isSome_iff_ne_none]

theorem State.lowestFreeSlot_eq_none_iff (s : State) : s.lowestFreeSlot = none ↔ ∀ j, s.entry j ≠ none := by
  simp [State.lowestFreeSlot, ← Fin.find?_eq_find?_finRange, Option.isSome_iff_ne_none]

/-! ## A command row and its owning rule (R150 to R154) -/

theorem exec_row (c : Command) (h : Host) (ps : List Byte) (s : State) :
    exec (c.row h ps) s = .next (takeCommand c h ps s) := by
  cases c <;> rfl

/-- A command of any host, with its byte count, is answered by its owning rule, and its result record is placed over the state
after that rule's changes. -/
theorem exec_row_of_owner {c : Command} {h : Host} {ps : List Byte} {s t : State} {st : Status} {vs : List Byte} (hps : ps ≠ [])
    (hlen : ps.length = c.byteCount) (hany : c.setupOnly = false)
    (hr : c.owner h ps (s.judged c h ps) = { status := st, values := vs, state := t }) :
    exec (c.row h ps) s = .next (t.withResult h c.address st vs) := by
  rw [exec_row, takeCommand_eq c h ps s hps]
  simp [Command.answer, hlen, hany, hr]

theorem exec_defineEntry {h : Host} {nb a1 a0 len cb : Byte} {s t : State} {st : Status} {vs : List Byte}
    (hr : cmdDefineEntry h [nb, a1, a0, len, cb] (s.judged .defineEntry h [nb, a1, a0, len, cb]) =
      { status := st, values := vs, state := t }) :
    exec (.defineEntry h [nb, a1, a0, len, cb]) s = .next (t.withResult h 0x80 st vs) :=
  exec_row_of_owner (c := .defineEntry) (by simp) rfl rfl hr

theorem exec_leaveEntry {h : Host} {ib : Byte} {s t : State} {st : Status} {vs : List Byte}
    (hr : cmdLeaveEntry h [ib] (s.judged .leaveEntry h [ib]) = { status := st, values := vs, state := t }) :
    exec (.leaveEntry h [ib]) s = .next (t.withResult h 0x81 st vs) :=
  exec_row_of_owner (c := .leaveEntry) (by simp) rfl rfl hr

theorem exec_queryEntry {h : Host} {ib : Byte} {s t : State} {st : Status} {vs : List Byte}
    (hr : cmdQueryEntry h [ib] (s.judged .queryEntry h [ib]) = { status := st, values := vs, state := t }) :
    exec (.queryEntry h [ib]) s = .next (t.withResult h 0x82 st vs) :=
  exec_row_of_owner (c := .queryEntry) (by simp) rfl rfl hr

/-! ## The operands -/

theorem nodeOfRef_eq_some_iff (b : Byte) (n : Node) : nodeOfRef b = some n ↔ b = nodeRef n :=
  ⟨nodeRef_of_nodeOfRef b n, fun h => h ▸ nodeOfRef_nodeRef n⟩

theorem nodeRef_toNat (n : Node) : (nodeRef n).toNat = 16 * (nodeLink n).val + nodeAddress n := by
  revert n; decide

theorem RateClass.ofByte_eq_none {b : Byte} (h : 4 < b.toNat) : RateClass.ofByte b = none := by
  have hne : b ≠ 4 := by rintro rfl; simp at h
  rw [RateClass.ofByte, dif_neg (by omega), if_neg hne]

theorem slotOfByte_eq_none {b : Byte} (h : 48 ≤ b.toNat) : slotOfByte b = none := dif_neg (by omega)

theorem slotOfByte_eq_some {b : Byte} {i : SlotIx} (h : b.toNat = i.val) : slotOfByte b = some i := by
  simp [slotOfByte, h]

theorem rangeOk_eq_false_iff (first : Word16) (len : Byte) :
    rangeOk first len = false ↔ len.toNat = 0 ∨ 8 < len.toNat ∨ 65535 < first.toNat + len.toNat - 1 := by
  simp only [rangeOk, decide_eq_false_iff_not]
  omega

/-- A range with a register shares one with itself. -/
theorem rangesShare_self {a la : Nat} (h : 0 < la) : rangesShare a la a la = true := by
  simp [rangesShare, h]

theorem rangeOk_pos {first : Word16} {len : Byte} (h : rangeOk first len = true) : 0 < len.toNat := by
  simp only [rangeOk, decide_eq_true_eq] at h
  omega

/-! ## One host's holder record (R5) -/

theorem Entry.heldBy_eq_true_iff (e : Entry) (h : Host) : e.heldBy h = true ↔ e.holders.get h ≠ none := by
  simp [Entry.heldBy, Option.isSome_iff_ne_none]

theorem Entry.heldBy_eq_false_iff (e : Entry) (h : Host) : e.heldBy h = false ↔ e.holders.get h = none := by
  simp [Entry.heldBy]

/-- Two changes of an entry's holder record agree where they agree on the present record. -/
theorem State.modEntry_modHolder_congr {s : State} {i : SlotIx} {e : Entry} (he : s.entry i = some e) {h : Host}
    {f g : Option Holder → Option Holder} (hfg : f (e.holders.get h) = g (e.holders.get h)) :
    s.modEntry i (Entry.modHolder h f) = s.modEntry i (Entry.modHolder h g) := by
  simp only [State.modEntry_of_entry i he, Entry.modHolder, upd_congr e.holders h hfg]

/-! ## DEFINE_ENTRY (R9 to R12) -/

/-- The entry is the one that a DEFINE_ENTRY of this node and range names (R10). -/
def Entry.hasRange (n : Node) (first : Word16) (len : Nat) (e : Entry) : Bool :=
  decide (e.node = n ∧ e.first = first ∧ e.length = len)

theorem Entry.hasRange_eq_false_iff (n : Node) (first : Word16) (len : Nat) (e : Entry) :
    e.hasRange n first len = false ↔ ¬ (e.node = n ∧ e.first = first ∧ e.length = len) := by
  simp [Entry.hasRange]

theorem Entry.touchedBy_eq_false_iff (n : Node) (a len : Nat) (e : Entry) :
    e.touchedBy n a len = false ↔ (e.node = n → rangesShare a len e.first.toNat e.length = false) := by
  simp [Entry.touchedBy]

/-- R9: parameters of which one is out of range. -/
theorem cmdDefineEntry_badParam (h : Host) {nb a1 a0 len cb : Byte} (s : State)
    (hbad : nodeOfRef nb = none ∨ RateClass.ofByte cb = none ∨ rangeOk (word16 a1 a0) len = false) :
    cmdDefineEntry h [nb, a1, a0, len, cb] s = refuse .badParam s := by
  simp only [cmdDefineEntry]
  split
  · next n c hn hc =>
    have hrange : rangeOk (word16 a1 a0) len = false := by simpa [hn, hc] using hbad
    rw [hrange]
    rfl
  · rfl

section
variable {h : Host} {nb a1 a0 len cb : Byte} {s : State} {n : Node} {c : RateClass} {i : SlotIx}
variable (hn : nodeOfRef nb = some n) (hc : RateClass.ofByte cb = some c) (hrange : rangeOk (word16 a1 a0) len = true)
include hn hc hrange

/-- R10: the host holds the entry of the very range. -/
theorem cmdDefineEntry_updated (hi : s.findEntry (Entry.hasRange n (word16 a1 a0) len.toNat) = some i) {e : Entry}
    (he : s.entry i = some e) {r : Holder} (hr : e.holders.get h = some r) :
    cmdDefineEntry h [nb, a1, a0, len, cb] s =
      { status := .updated, values := [byteOf i.val],
        state := meetLimit i (s.modEntry i (Entry.modHolder h fun _ => some { r with cls := c })) } := by
  have hheld : (s.entry i).any (fun e => e.heldBy h) = true := by simp [he, Entry.heldBy, hr]
  have hset : s.modEntry i (Entry.modHolder h (Option.map fun r => { r with cls := c }))
      = s.modEntry i (Entry.modHolder h fun _ => some { r with cls := c }) :=
    State.modEntry_modHolder_congr he (by simp [hr])
  unfold Entry.hasRange at hi
  simp only [cmdDefineEntry, hn, hc, hrange, hi, hheld, hset, Bool.not_true, Bool.false_eq_true, if_false, if_true]

/-- R10: the host does not hold the entry of the very range. -/
theorem cmdDefineEntry_joined (hi : s.findEntry (Entry.hasRange n (word16 a1 a0) len.toNat) = some i) {e : Entry}
    (he : s.entry i = some e) (hr : e.holders.get h = none) :
    cmdDefineEntry h [nb, a1, a0, len, cb] s =
      { status := .joined, values := [byteOf i.val],
        state := meetLimit i (s.modEntry i (Entry.modHolder h fun _ => some { cls := c, watch := none })) } := by
  have hheld : (s.entry i).any (fun e => e.heldBy h) = false := by simp [he, Entry.heldBy, hr]
  unfold Entry.hasRange at hi
  simp only [cmdDefineEntry, hn, hc, hrange, hi, hheld, Bool.not_true, Bool.false_eq_true, if_false]

/-- R11: no entry has the very range, and one shares a register. -/
theorem cmdDefineEntry_overlap (hnew : s.findEntry (Entry.hasRange n (word16 a1 a0) len.toNat) = none)
    (hshare : s.findEntry (fun e => e.touchedBy n (word16 a1 a0).toNat len.toNat) ≠ none) :
    cmdDefineEntry h [nb, a1, a0, len, cb] s = refuse .overlap s := by
  unfold Entry.hasRange at hnew
  simp only [cmdDefineEntry, hn, hc, hrange, hnew, Option.isSome_iff_ne_none.2 hshare, Bool.not_true, Bool.false_eq_true,
    if_false, if_true]

/-- R11: no entry shares a register, and no slot is free. -/
theorem cmdDefineEntry_tableFull (hnew : s.findEntry (Entry.hasRange n (word16 a1 a0) len.toNat) = none)
    (hshare : s.findEntry (fun e => e.touchedBy n (word16 a1 a0).toNat len.toNat) = none)
    (hfull : s.lowestFreeSlot = none) :
    cmdDefineEntry h [nb, a1, a0, len, cb] s = refuse .tableFull s := by
  unfold Entry.hasRange at hnew
  simp only [cmdDefineEntry, hn, hc, hrange, hnew, hshare, hfull, Option.isSome_none, Bool.not_true, Bool.false_eq_true,
    if_false]

/-- R11, R12: no entry shares a register, and slot `i` is the lowest free one. -/
theorem cmdDefineEntry_ok (hnew : s.findEntry (Entry.hasRange n (word16 a1 a0) len.toNat) = none)
    (hshare : s.findEntry (fun e => e.touchedBy n (word16 a1 a0).toNat len.toNat) = none)
    (hfree : s.lowestFreeSlot = some i) :
    cmdDefineEntry h [nb, a1, a0, len, cb] s =
      { status := .ok, values := [byteOf i.val, (s.slots.get i).generation],
        state := grants (createEntry i n (word16 a1 a0) len.toNat h c s) } := by
  unfold Entry.hasRange at hnew
  simp only [cmdDefineEntry, hn, hc, hrange, hnew, hshare, hfree, Option.isSome_none, Bool.not_true, Bool.false_eq_true,
    if_false]

end

/-- A range that no entry of the node shares is no entry's own. -/
theorem findEntry_hasRange_of_disjoint {s : State} {n : Node} {first : Word16} {len : Nat} (hlen : 0 < len)
    (hfree : ∀ j, ∀ e ∈ s.entry j, e.node = n → rangesShare first.toNat len e.first.toNat e.length = false) :
    s.findEntry (Entry.hasRange n first len) = none := by
  refine (s.findEntry_eq_none_iff _).2 fun j e he => ?_
  rw [Entry.hasRange_eq_false_iff]
  rintro ⟨hnode, hfirst, hlength⟩
  have hno := hfree j e he hnode
  rw [hfirst, hlength, rangesShare_self hlen] at hno
  contradiction

theorem findEntry_touchedBy_eq_none_iff (s : State) (n : Node) (a len : Nat) :
    s.findEntry (fun e => e.touchedBy n a len) = none
      ↔ ∀ j, ∀ e ∈ s.entry j, e.node = n → rangesShare a len e.first.toNat e.length = false := by
  simp only [State.findEntry_eq_none_iff, Entry.touchedBy_eq_false_iff]

section
variable (i : SlotIx) {n : Node} (first : Word16) {len : Nat} (h : Host) (c : RateClass) {s : State}

/-- R12: the node is not PRESENT. -/
theorem createEntry_notPresent (hp : s.presence n ≠ .present) :
    createEntry i n first len h c s = s.putEntry i (newEntry n first len h c .suspended) := by
  have hst : s.createdState n len = .suspended := if_pos hp
  simp only [createEntry, hst]
  rfl

/-- R12: the node takes fewer bytes than the entry has. -/
theorem createEntry_tooLong (hp : s.presence n = .present) (hlen : s.maxLength n < len) :
    createEntry i n first len h c s =
      notify h (eventOf .entryFailed (byteOf i.val) Reason.tooLong.code 0)
        (s.putEntry i (newEntry n first len h c .failed)) := by
  have hst : s.createdState n len = .failed := by simp [State.createdState, hp, hlen]
  simp only [createEntry, hst]
  rfl

/-- R12, R36: the first poll of an entry that can be polled is queued at once. -/
theorem createEntry_fits (hp : s.presence n = .present) (hlen : len ≤ s.maxLength n) :
    createEntry i n first len h c s = s.putQueued i (newEntry n first len h c .unfilled) := by
  have hst : s.createdState n len = .unfilled := by simp [State.createdState, hp, hlen]
  have hpoll : (newEntry n first len h c .unfilled).pollable = true :=
    Entry.pollable_of_state EntryState.noConfusion EntryState.noConfusion
  simp only [createEntry, hst]
  exact queuePoll_putEntry_pollable i s rfl hpoll

end

/-- Settles O20: the parameters in the order R9 checks them, then R11's two refusals by what the two searches of the table find. -/
theorem defineEntryRefusals : Obligations.DefineEntryRefusals := by
  refine ⟨fun n => ⟨rfl, rfl, nodeRef_toNat n, fun b => nodeOfRef_eq_some_iff b n⟩, fun s n i hi => ?_, word16_toNat,
    fun h nb a1 a0 len cb s => ⟨fun hbad => exec_defineEntry (cmdDefineEntry_badParam h _ ?_), ?_⟩⟩
  · simp [State.maxLength, hi]
  · rcases hbad with hnode | hzero | hlong | hpast | hclass
    · exact .inl hnode
    · exact .inr (.inr ((rangeOk_eq_false_iff ..).2 (.inl hzero)))
    · exact .inr (.inr ((rangeOk_eq_false_iff ..).2 (.inr (.inl hlong))))
    · exact .inr (.inr ((rangeOk_eq_false_iff ..).2 (.inr (.inr hpast))))
    · exact .inr (.inl (RateClass.ofByte_eq_none hclass))
  · intro n c hn hc hrange hother
    have hnew := (State.findEntry_eq_none_iff _ _).2 fun j e he => (Entry.hasRange_eq_false_iff ..).2 (hother j e he)
    refine ⟨fun ⟨j, e, he, hnode, hshare⟩ => exec_defineEntry (cmdDefineEntry_overlap hn hc hrange hnew fun hnone => ?_),
      fun hfree hfull => exec_defineEntry (cmdDefineEntry_tableFull hn hc hrange hnew
        ((findEntry_touchedBy_eq_none_iff ..).2 hfree) ((State.lowestFreeSlot_eq_none_iff _).2 hfull))⟩
    have hno := (findEntry_touchedBy_eq_none_iff ..).1 hnone j e he hnode
    simp [hno] at hshare

/-- Settles O18: the entry is created in the lowest free slot, and R12's three start states are the three cases of
`createEntry`. -/
theorem defineEntryCreates : Obligations.DefineEntryCreates := by
  intro h nb a1 a0 len cb s n c i s0 first hn hc hrange hfree hi hlowest entry made answered
  have hanswer : exec (.defineEntry h [nb, a1, a0, len, cb]) s = answered (createEntry i n first len.toNat h c s0) :=
    exec_defineEntry (cmdDefineEntry_ok hn hc hrange (findEntry_hasRange_of_disjoint (rangeOk_pos hrange) hfree)
      ((findEntry_touchedBy_eq_none_iff ..).2 hfree) ((State.lowestFreeSlot_eq_some_iff _ _).2 ⟨hi, hlowest⟩))
  refine ⟨fun hp => ?_, fun hp hlen => ?_, fun hp hlen => ?_⟩
  · exact hanswer.trans (congrArg answered (createEntry_notPresent i first h c hp))
  · exact hanswer.trans (congrArg answered (createEntry_tooLong i first h c hp hlen))
  · exact hanswer.trans (congrArg answered (createEntry_fits i first h c hp hlen))

/-- Settles O19: the lowest slot of the very range is slot `i`, and the entry there has the host among its holders or not. -/
theorem defineEntryJoinsOrUpdates : Obligations.DefineEntryJoinsOrUpdates := by
  intro h nb a1 a0 len cb s n c i e s0 hn hc hrange he hnode hfirst hlength hlower
  have hi : s0.findEntry (Entry.hasRange n (word16 a1 a0) len.toNat) = some i :=
    (State.findEntry_eq_some_iff ..).2 ⟨⟨e, he, by simp [Entry.hasRange, hnode, hfirst, hlength]⟩,
      fun j hj x hx => (Entry.hasRange_eq_false_iff ..).2 (hlower j hj x hx)⟩
  exact ⟨fun r hr => exec_defineEntry (cmdDefineEntry_updated hn hc hrange hi he hr),
    fun hr => exec_defineEntry (cmdDefineEntry_joined hn hc hrange hi he hr)⟩

/-! ## LEAVE_ENTRY (R13, R14) -/

theorem Entry.holderCount_eq_countP (e : Entry) :
    e.holderCount = (List.finRange 3).countP fun g => (e.holders.get g).isSome :=
  List.countP_eq_length_filter.symm

/-- R13: the holders that remain when host `h` leaves are the others. -/
theorem Entry.holderCount_leave (e : Entry) (h : Host) :
    (e.modHolder h fun _ => none).holderCount =
      (List.finRange 3).countP fun g => g ≠ h && (e.holders.get g).isSome := by
  rw [Entry.holderCount_eq_countP]
  refine List.countP_congr fun g _ => ?_
  simp only [Entry.modHolder, get_upd]
  split <;> simp_all

theorem Entry.holderCount_leave_eq_zero_iff (e : Entry) (h : Host) :
    (e.modHolder h fun _ => none).holderCount = 0 ↔ ∀ g, g ≠ h → e.holders.get g = none := by
  simp [Entry.holderCount_leave]

/-- R14: the slot of the entry `e` is freed; nothing of `e` but its node counts, and that for the queue its item stands in. -/
theorem freeSlot_putEntry (i : SlotIx) (e : Entry) (s : State) :
    freeSlot i (s.putEntry i e) =
      (s.modPolls (nodeLink e.node) fun q => q.filter fun item => item.slot ≠ i).modSlot i fun sl =>
        { generation := sl.generation + 1, entry := none } := by
  simp only [freeSlot, State.putEntry_entry_self]
  calc
    _ = ((s.modPolls (nodeLink e.node) fun q => q.filter fun item => item.slot ≠ i).putEntry i e).modSlot i fun sl =>
        { generation := sl.generation + 1, entry := none } := rfl
    _ = _ := State.modSlot_modSlot ..

section
variable {h : Host} {i : SlotIx} {e : Entry} {s : State} (he : s.entry i = some e)
include he

theorem removeHolder_last (hlast : ∀ g, g ≠ h → e.holders.get g = none) :
    removeHolder h i s =
      (s.modPolls (nodeLink e.node) fun q => q.filter fun item => item.slot ≠ i).modSlot i fun sl =>
        { generation := sl.generation + 1, entry := none } := by
  have hzero := (e.holderCount_leave_eq_zero_iff h).2 hlast
  simp only [removeHolder, State.modEntry_of_entry i he, State.putEntry_entry_self, hzero, if_true]
  exact freeSlot_putEntry ..

theorem removeHolder_others (hothers : ∃ g, g ≠ h ∧ e.holders.get g ≠ none) :
    removeHolder h i s = meetLimit i (s.modEntry i (Entry.modHolder h fun _ => none)) := by
  have hcount : (e.modHolder h fun _ => none).holderCount ≠ 0 := fun hzero =>
    have ⟨g, hg, hsome⟩ := hothers
    hsome ((e.holderCount_leave_eq_zero_iff h).1 hzero g hg)
  simp only [removeHolder, State.modEntry_entry_self, he, Option.map_some, hcount, if_false]

end

theorem cmdLeaveEntry_badParam (h : Host) {ib : Byte} (s : State) (hib : 48 ≤ ib.toNat) :
    cmdLeaveEntry h [ib] s = refuse .badParam s := by
  simp only [cmdLeaveEntry, slotOfByte_eq_none hib]

section
variable {h : Host} {ib : Byte} {i : SlotIx} {s : State} (hib : ib.toNat = i.val)
include hib

theorem cmdLeaveEntry_notFound (he : s.entry i = none) : cmdLeaveEntry h [ib] s = refuse .notFound s := by
  simp only [cmdLeaveEntry, slotOfByte_eq_some hib, he]

theorem cmdLeaveEntry_notHolder {e : Entry} (he : s.entry i = some e) (hr : e.holders.get h = none) :
    cmdLeaveEntry h [ib] s = refuse .notHolder s := by
  simp only [cmdLeaveEntry, slotOfByte_eq_some hib, he, (e.heldBy_eq_false_iff h).2 hr, Bool.false_eq_true, if_false]

theorem cmdLeaveEntry_ok {e : Entry} (he : s.entry i = some e) (hr : e.holders.get h ≠ none) :
    cmdLeaveEntry h [ib] s =
      { status := .ok, values := [byteOf (e.modHolder h fun _ => none).holderCount], state := removeHolder h i s } := by
  simp only [cmdLeaveEntry, slotOfByte_eq_some hib, he, (e.heldBy_eq_true_iff h).2 hr, if_true]

end

/-- Settles O21: whether the host's record was the last decides what its removal does to the slot. -/
theorem leaveEntryRemovesHolder : Obligations.LeaveEntryRemovesHolder := by
  intro h ib s s0
  refine ⟨fun hib => exec_leaveEntry (cmdLeaveEntry_badParam h _ hib), fun i hib =>
    ⟨fun he => exec_leaveEntry (cmdLeaveEntry_notFound hib he), fun e he =>
      ⟨fun hr => exec_leaveEntry (cmdLeaveEntry_notHolder hib he hr), fun hr hlast => ?_, fun hr hothers => ?_⟩⟩⟩
  · rw [exec_leaveEntry (cmdLeaveEntry_ok hib he hr), removeHolder_last he hlast,
      (e.holderCount_leave_eq_zero_iff h).2 hlast]
    rfl
  · rw [exec_leaveEntry (cmdLeaveEntry_ok hib he hr), removeHolder_others he hothers, Entry.holderCount_leave]
    rfl

/-! ## QUERY_ENTRY (R15, R172) -/

/-- R172: two numbers below 16 packed in one byte. -/
theorem nibbles_eq {lo hi : Byte} (hlo : lo.toNat < 16) (hhi : hi.toNat < 16) :
    nibbles lo hi = byteOf (lo.toNat + 16 * hi.toNat) := by
  apply BitVec.eq_of_toNat_eq
  have hmod : ∀ n, n < 16 → n % 2 ^ 4 = n := fun n hn => Nat.mod_eq_of_lt hn
  simp only [nibbles, byteOf, BitVec.toNat_append, BitVec.toNat_setWidth, BitVec.toNat_ofNat, hmod _ hlo, hmod _ hhi]
  rw [← Nat.shiftLeft_add_eq_or_of_lt (b := lo.toNat) (by omega), Nat.shiftLeft_eq]
  omega

theorem RateClass.code_lt (c : RateClass) : c.code.toNat < 16 := by
  cases c with
  | timed c => revert c; decide
  | notice => decide

theorem classNibble_toNat (r : Option Holder) :
    (classNibble r).toNat = match r with | none => 15 | some r => r.cls.code.toNat := by
  cases r <;> rfl

theorem classNibble_lt (r : Option Holder) : (classNibble r).toNat < 16 := by
  cases r with
  | none => decide
  | some r => exact r.cls.code_lt

theorem cmdQueryEntry_badParam (h : Host) {ib : Byte} (s : State) (hib : 48 ≤ ib.toNat) :
    cmdQueryEntry h [ib] s = refuse .badParam s := by
  simp only [cmdQueryEntry, slotOfByte_eq_none hib]

section
variable {h : Host} {ib : Byte} {i : SlotIx} {s : State} (hib : ib.toNat = i.val)
include hib

theorem cmdQueryEntry_notFound (he : s.entry i = none) :
    cmdQueryEntry h [ib] s = { status := .notFound, values := [(s.slots.get i).generation], state := s } := by
  simp only [cmdQueryEntry, slotOfByte_eq_some hib, he]

theorem cmdQueryEntry_ok {e : Entry} (he : s.entry i = some e) :
    cmdQueryEntry h [ib] s = { status := .ok, values := entryBytes s i e, state := s } := by
  simp only [cmdQueryEntry, slotOfByte_eq_some hib, he]

end

theorem byteOfBool_toNat (b : Bool) : (byteOfBool b).toNat = if b then 1 else 0 := by cases b <;> rfl

/-- R172: the ten value bytes as numbers. -/
theorem entryBytes_eq (s : State) (i : SlotIx) (e : Entry) :
    entryBytes s i e =
      [byteOf (e.state.code.toNat + 16 * (if e.hasData then 1 else 0) + 32 * e.phase.code.toNat),
       byteOf ((classNibble (e.holders.get 0)).toNat + 16 * (classNibble (e.holders.get 1)).toNat),
       byteOf ((classNibble (e.holders.get 2)).toNat + 16 * (s.effective e).code.toNat),
       byteOf (e.age.toNat / 256), byteOf e.age.toNat, byteOf (e.epoch.toNat / 256), byteOf e.epoch.toNat,
       e.skipped, e.fault.code, (s.slots.get i).generation] := by
  simp only [entryBytes, nibbles_eq (classNibble_lt _) (classNibble_lt _),
    nibbles_eq (classNibble_lt _) (RateClass.code_lt _), bytes16_eq, byteOfBool_toNat]
  rfl

/-- Settles O22: each of the ten value bytes is the number R172 packs into it. -/
theorem queryEntryAnswers : Obligations.QueryEntryAnswers := by
  intro h ib s s0
  refine ⟨fun hib => exec_queryEntry (cmdQueryEntry_badParam h _ hib), fun i hib =>
    ⟨fun he => exec_queryEntry (cmdQueryEntry_notFound hib he), fun e he => ?_⟩⟩
  rw [exec_queryEntry (cmdQueryEntry_ok hib he), entryBytes_eq]
  simp only [classNibble_toNat]
  rfl

/-! ## Poll endings (R16 to R21) -/

/-- The entry with its poll ended: no poll, no mark (R8). -/
def Entry.polled (e : Entry) : Entry := { e with phase := .idle, repoll := false }

theorem Entry.polled_pollable (e : Entry) : e.polled.pollable = e.pollable := rfl

/-- R18: the entry after an accepted poll fill, in the state `st`. -/
def Entry.filled (data : List Byte) (st : EntryState) (e : Entry) : Entry :=
  { e.polled with data := data.map some, age := 0, state := st }

/-- R20: the entry after a failed poll. -/
def Entry.failedWith (why : Reason) (e : Entry) : Entry := { e.polled with state := .failed, fault := why }

/-- The entry `e` stands in slot `i`, QUEUED if a poll is asked for it `again`. -/
def State.putPolled (i : SlotIx) (again : Bool) (e : Entry) (s : State) : State :=
  if again then s.putQueued i e else s.putEntry i e

theorem queuePoll_putEntry_if (i : SlotIx) (marked : Bool) {e : Entry} (s : State) (hidle : e.phase = .idle) :
    (if marked then queuePoll i (s.putEntry i e) else s.putEntry i e) = s.putPolled i (marked && e.pollable) e := by
  cases marked
  · rfl
  · exact queuePoll_putEntry i s hidle

section
variable {s : State} {i : SlotIx} {e : Entry} (he : s.entry i = some e)
include he

/-- R18: the fill, the new poll of a marked entry, ENTRY_RECOVERED, and the watches. -/
theorem acceptFill_eq (data : List Byte) :
    acceptFill i e data s =
      let filled := s.putPolled i e.repoll (e.filled data (if e.repoll then .stale else .valid))
      evaluateWatches i (if e.state = .failed then entryEvent i .entryRecovered .none filled else filled) := by
  have hpoll : (e.filled data (if e.repoll then .stale else .valid)).pollable = true := by
    cases hm : e.repoll <;> exact Entry.pollable_of_state EntryState.noConfusion EntryState.noConfusion
  have hput := queuePoll_putEntry_if i e.repoll (e := e.filled data (if e.repoll then .stale else .valid)) s rfl
  rw [hpoll, Bool.and_true] at hput
  simp only [acceptFill, State.modEntry_of_entry i he, ← hput]
  rfl

/-- R20: the new poll of a marked entry and ENTRY_FAILED; a poll's own failure leaves the entry pollable. -/
theorem failPoll_eq {why : Reason} (hwhy : why ≠ .tooLong) :
    failPoll i e why s =
      let failed := s.putPolled i e.repoll (e.failedWith why)
      if e.state = .failed then failed else entryEvent i .entryFailed why failed := by
  have hpoll : (e.failedWith why).pollable = true := Entry.pollable_of_failed rfl hwhy
  have hput := queuePoll_putEntry_if i e.repoll (e := e.failedWith why) s rfl
  rw [hpoll, Bool.and_true] at hput
  simp only [failPoll, State.modEntry_of_entry i he, ← hput]
  cases e.repoll
  · rfl
  · simp only [if_true, apply_ite (queuePoll i), queuePoll_entryEvent]
    rfl

theorem pollApplies_eq_true : pollApplies s i (s.slots.get i).generation e.node e.first e.length = true := by
  simp [pollApplies, he]

theorem applyPollEnding_suspended (ep : Word16) (outcome : Reason) (data : List Byte) (hs : e.state = .suspended) :
    applyPollEnding i (s.slots.get i).generation e.node e.first e.length ep outcome data s = s.putEntry i e.polled := by
  simp only [applyPollEnding, pollApplies_eq_true he, he, if_pos hs, State.modEntry_of_entry i he, Bool.not_true,
    Bool.false_eq_true, if_false]
  rfl

variable (hs : e.state ≠ .suspended)
include hs

theorem applyPollEnding_accepted (data : List Byte) :
    applyPollEnding i (s.slots.get i).generation e.node e.first e.length e.epoch .ok data s = acceptFill i e data s := by
  simp only [applyPollEnding, pollApplies_eq_true he, he, hs, Bool.not_true, Bool.false_eq_true, if_false, if_true]

/-- R19: a write has completed since the poll was sent. -/
theorem applyPollEnding_otherEpoch {ep : Word16} (data : List Byte) (hep : e.epoch ≠ ep) :
    applyPollEnding i (s.slots.get i).generation e.node e.first e.length ep .ok data s =
      s.putPolled i e.pollable e.polled := by
  simp only [applyPollEnding, pollApplies_eq_true he, he, hs, hep, State.modEntry_of_entry i he, Bool.not_true,
    Bool.false_eq_true, if_false]
  exact queuePoll_putEntry i s rfl

theorem applyPollEnding_failed (ep : Word16) (data : List Byte) {outcome : Reason}
    (ho : outcome = .refused ∨ outcome = .badAddress ∨ outcome = .timeout) :
    applyPollEnding i (s.slots.get i).generation e.node e.first e.length ep outcome data s = failPoll i e outcome s := by
  rcases ho with rfl | rfl | rfl <;>
    simp only [applyPollEnding, pollApplies_eq_true he, he, hs, Bool.not_true, Bool.false_eq_true, if_false]

/-- R21: the entry keeps its state and data; a set mark has a poll queued. -/
theorem applyPollEnding_noAnswer (ep : Word16) (data : List Byte) {outcome : Reason}
    (ho : outcome = .busy ∨ outcome = .linkDown ∨ outcome = .stopped ∨ outcome = .nodeLost ∨ outcome = .nodeRestarted) :
    applyPollEnding i (s.slots.get i).generation e.node e.first e.length ep outcome data s =
      s.putPolled i (e.repoll && e.pollable) e.polled := by
  have hput := queuePoll_putEntry_if i e.repoll (e := e.polled) s rfl
  rw [Entry.polled_pollable] at hput
  rw [← hput]
  rcases ho with rfl | rfl | rfl | rfl | rfl <;>
    simp only [applyPollEnding, pollApplies_eq_true he, he, hs, State.modEntry_of_entry i he, Bool.not_true,
      Bool.false_eq_true, if_false] <;> rfl

end

theorem applyPollEnding_movedOn {s : State} {i : SlotIx} {g : Byte} {n : Node} {a : Word16} {len : Nat} (ep : Word16)
    (outcome : Reason) (data : List Byte)
    (h : ∀ e ∈ s.entry i, ¬ ((s.slots.get i).generation = g ∧ e.node = n ∧ e.first = a ∧ e.length = len)) :
    applyPollEnding i g n a len ep outcome data s = s := by
  have hno : pollApplies s i g n a len = false := by
    unfold pollApplies
    split
    · rfl
    · next e he => exact decide_eq_false (h e he)
  simp only [applyPollEnding, hno, Bool.not_false, if_true]

/-- Settles O48: one case per outcome, each by its equation above. -/
theorem pollEndingsApplied : Obligations.PollEndingsApplied := by
  intro i g n a len ep outcome data s
  refine ⟨applyPollEnding_movedOn ep outcome data, ?_⟩
  rintro e he rfl rfl rfl rfl put queued idle
  refine ⟨fun hs => applyPollEnding_suspended he ep outcome data hs, fun hs => ⟨?accepted, ?discarded, ?failed, ?noAnswer⟩⟩
  case accepted =>
    rintro rfl rfl told
    have hfill := (applyPollEnding_accepted he hs data).trans (acceptFill_eq he data)
    refine ⟨fun hmark => hfill.trans ?_, fun hmark => hfill.trans ?_⟩ <;> rw [hmark] <;> rfl
  case discarded =>
    rintro rfl hep
    exact applyPollEnding_otherEpoch he hs data hep
  case failed =>
    intro ho failed told
    have hwhy : outcome ≠ .tooLong := by rcases ho with rfl | rfl | rfl <;> exact Reason.noConfusion
    have hfail := (applyPollEnding_failed he hs ep data ho).trans (failPoll_eq he hwhy)
    refine ⟨fun hmark => hfail.trans ?_, fun hmark => hfail.trans ?_⟩ <;> rw [hmark] <;> rfl
  case noAnswer =>
    exact fun ho => applyPollEnding_noAnswer he hs ep data ho

end Sys2Proof.Machine

/-!
# The setup commands: the straps, and the class periods (R31, R153)

A command of the setup host is judged after the open transaction's ending, which may itself be another command. So the first part
is the frame of every command: its owning rule changes records, and never the count, the straps or the queue of rows.
-/

namespace Sys2Proof.Machine

-- One proof at a time, as in the tests: a thread of its own for each would pass the memory limit of the check.
set_option Elab.async false

/-! ## Reads that no command and no ending changes -/

/-- `g` reads none of the records that a command or a transaction's ending may change. -/
structure IgnoresRecords {α : Type} (g : State → α) : Prop where
  hosts : IgnoresHosts g
  slots : IgnoresSlots g
  polls : IgnoresPolls g
  writes : IgnoresWrites g
  claims : IgnoresClaims g
  nodes : IgnoresNodes g
  links : IgnoresLinks g
  arbiters : IgnoresArbiters g
  choices : IgnoresChoices g
  due : IgnoresDue g
  periods : ∀ v s, g { s with periods := v } = g s

/-- The setup host is read from the straps alone (R133). -/
theorem ignoresRecords_setupHost : IgnoresRecords State.setupHost where
  hosts _ _ _ := rfl
  slots _ _ _ := rfl
  polls _ _ _ := rfl
  writes _ _ _ := rfl
  claims _ _ _ := rfl
  nodes _ _ _ := rfl
  links _ _ _ := rfl
  arbiters _ _ _ := rfl
  choices _ _ := rfl
  due _ _ := rfl
  periods _ _ := rfl

section
variable {α : Type} {g : State → α} (hg : IgnoresRecords g)
include hg

/-! ### The owning rules of the commands (Chapter 9) -/

theorem createEntry_read (i : SlotIx) (n : Node) (first : Word16) (len : Nat) (h : Host) (c : RateClass) (s : State) :
    g (createEntry i n first len h c s) = g s := by
  unfold createEntry
  dsimp only
  split <;> simp only [queuePoll_read hg.slots hg.polls, notify_read hg.hosts, hg.slots]

theorem cmdDefineEntry_read (h : Host) (ps : List Byte) (s : State) : g (cmdDefineEntry h ps s).state = g s := by
  unfold cmdDefineEntry
  dsimp only
  repeat' split
  all_goals
    simp only [refuse, meetLimit_read hg.hosts hg.slots, modEntry_read hg.slots, createEntry_read hg,
      grants_read hg.arbiters hg.writes hg.slots hg.polls]

theorem cmdLeaveEntry_read (h : Host) (ps : List Byte) (s : State) : g (cmdLeaveEntry h ps s).state = g s := by
  unfold cmdLeaveEntry
  repeat' split
  all_goals simp only [refuse, removeHolder_read hg.hosts hg.slots hg.polls]

theorem cmdSetWatch_read (h : Host) (ps : List Byte) (s : State) : g (cmdSetWatch h ps s).state = g s := by
  unfold cmdSetWatch
  dsimp only
  repeat' split
  all_goals simp only [refuse, evaluateWatch_read hg.hosts hg.slots, modEntry_read hg.slots]

theorem cmdClearWatch_read (h : Host) (ps : List Byte) (s : State) : g (cmdClearWatch h ps s).state = g s := by
  unfold cmdClearWatch
  repeat' split
  all_goals simp only [refuse, modEntry_read hg.slots]

theorem cmdSetNotify_read (h : Host) (ps : List Byte) (s : State) : g (cmdSetNotify h ps s).state = g s := by
  unfold cmdSetNotify
  dsimp only
  repeat' split
  all_goals simp only [refuse, hg.hosts]

theorem cmdSetAlias_read (h : Host) (ps : List Byte) (s : State) : g (cmdSetAlias h ps s).state = g s := by
  unfold cmdSetAlias
  repeat' split
  all_goals simp only [refuse, hg.hosts]

theorem cmdClearAlias_read (h : Host) (ps : List Byte) (s : State) : g (cmdClearAlias h ps s).state = g s := by
  unfold cmdClearAlias
  repeat' split
  all_goals simp only [refuse, hg.hosts]

theorem cmdFetch_read (h : Host) (ps : List Byte) (s : State) : g (cmdFetch h ps s).state = g s := by
  unfold cmdFetch acceptFetch
  dsimp only
  repeat' split
  all_goals simp only [refuse, grants_read hg.arbiters hg.writes hg.slots hg.polls, hg.arbiters, hg.hosts]

theorem cmdDrain_read (h : Host) (ps : List Byte) (s : State) : g (cmdDrain h ps s).state = g s := by
  unfold cmdDrain markCovered
  dsimp only
  repeat' split
  all_goals simp only [refuse, notify_read hg.hosts, hg.writes, hg.hosts]

theorem cmdClaim_read (h : Host) (ps : List Byte) (s : State) : g (cmdClaim h ps s).state = g s := by
  unfold cmdClaim startLease
  dsimp only
  repeat' split
  all_goals simp only [refuse, hg.claims]

theorem cmdRenew_read (h : Host) (ps : List Byte) (s : State) : g (cmdRenew h ps s).state = g s := by
  unfold cmdRenew startLease
  dsimp only
  repeat' split
  all_goals simp only [refuse, hg.claims]

theorem cmdUnclaim_read (h : Host) (ps : List Byte) (s : State) : g (cmdUnclaim h ps s).state = g s := by
  unfold cmdUnclaim withdrawWait
  repeat' split
  all_goals simp only [refuse, releaseClaim_read hg.hosts hg.claims, hg.claims]

theorem clearFetch_read (h : Host) (l : Link) (s : State) : g (clearFetch h l s) = g s :=
  (forTags_read _ (fun _ _ => hg.arbiters ..) _).trans (hg.arbiters ..)

theorem cmdClearHost_read (h : Host) (ps : List Byte) (s : State) : g (cmdClearHost h ps s).state = g s := by
  have hholders : ∀ s, g (clearHolders h s) = g s :=
    forEntries_read _ _ fun i s => removeHolder_read hg.hosts hg.slots hg.polls h i s
  simp only [cmdClearHost, clearHost, hg.hosts, clearFetch_read hg, clearClaims_read hg.hosts hg.claims,
    clearWrites_read hg.hosts hg.writes, hholders]

theorem cmdSetClassPeriod_read (h : Host) (ps : List Byte) (s : State) : g (cmdSetClassPeriod h ps s).state = g s := by
  unfold cmdSetClassPeriod
  dsimp only
  repeat' split
  all_goals simp only [refuse, checkLimits_read hg.hosts hg.slots, hg.periods]

theorem cmdSetLinkTiming_read (h : Host) (ps : List Byte) (s : State) : g (cmdSetLinkTiming h ps s).state = g s := by
  unfold cmdSetLinkTiming
  repeat' split
  all_goals simp only [refuse, hg.links]

theorem cmdLinkStart_read (h : Host) (ps : List Byte) (s : State) : g (cmdLinkStart h ps s).state = g s := by
  unfold cmdLinkStart
  repeat' split
  all_goals simp only [refuse, hg.arbiters, hg.links]

theorem cmdLinkStop_read (h : Host) (ps : List Byte) (s : State) : g (cmdLinkStop h ps s).state = g s := by
  unfold cmdLinkStop
  dsimp only
  repeat' split
  all_goals
    simp only [refuse, hg.links, departLink_read hg.hosts hg.slots hg.polls hg.writes hg.arbiters hg.nodes hg.links hg.choices]

theorem pinNode_read (n : Node) (pin : Pin) (s : State) : g (pinNode n pin s) = g s := by
  unfold pinNode nodeEvent
  dsimp only
  split <;>
    simp only [leavePresent_read hg.hosts hg.slots hg.polls hg.writes hg.arbiters hg.nodes hg.choices,
      broadcast_read hg.hosts, beginIdent_read hg.arbiters hg.nodes, hg.nodes]

theorem unpinNode_read (n : Node) (s : State) : g (unpinNode n s) = g s := by
  unfold unpinNode
  dsimp only
  split <;> simp only [beginIdent_read hg.arbiters hg.nodes, hg.nodes]

theorem cmdPinNode_read (h : Host) (ps : List Byte) (s : State) : g (cmdPinNode h ps s).state = g s := by
  unfold cmdPinNode
  repeat' split
  all_goals simp only [refuse, grants_read hg.arbiters hg.writes hg.slots hg.polls, pinNode_read hg]

theorem cmdUnpinNode_read (h : Host) (ps : List Byte) (s : State) : g (cmdUnpinNode h ps s).state = g s := by
  unfold cmdUnpinNode
  repeat' split
  all_goals simp only [refuse, grants_read hg.arbiters hg.writes hg.slots hg.polls, unpinNode_read hg]

omit hg in
/-- R15, R94, R109: a query changes nothing at all. -/
theorem owner_state_of_query {c : Command} (hc : c = .queryEntry ∨ c = .queryNode ∨ c = .queryLink) (h : Host) (ps : List Byte)
    (s : State) : (c.owner h ps s).state = s := by
  rcases hc with rfl | rfl | rfl <;> simp only [Command.owner, cmdQueryEntry, cmdQueryNode, cmdQueryLink] <;> repeat' split
  all_goals rfl

theorem owner_read (c : Command) (h : Host) (ps : List Byte) (s : State) : g (c.owner h ps s).state = g s := by
  cases c with
  | defineEntry => exact cmdDefineEntry_read hg h ps s
  | leaveEntry => exact cmdLeaveEntry_read hg h ps s
  | queryEntry => rw [owner_state_of_query (by simp)]
  | setWatch => exact cmdSetWatch_read hg h ps s
  | clearWatch => exact cmdClearWatch_read hg h ps s
  | setNotify => exact cmdSetNotify_read hg h ps s
  | setAlias => exact cmdSetAlias_read hg h ps s
  | clearAlias => exact cmdClearAlias_read hg h ps s
  | fetch => exact cmdFetch_read hg h ps s
  | drain => exact cmdDrain_read hg h ps s
  | claim => exact cmdClaim_read hg h ps s
  | renew => exact cmdRenew_read hg h ps s
  | unclaim => exact cmdUnclaim_read hg h ps s
  | queryNode => rw [owner_state_of_query (by simp)]
  | queryLink => rw [owner_state_of_query (by simp)]
  | clearHost => exact cmdClearHost_read hg h ps s
  | setClassPeriod => exact cmdSetClassPeriod_read hg h ps s
  | setLinkTiming => exact cmdSetLinkTiming_read hg h ps s
  | linkStart => exact cmdLinkStart_read hg h ps s
  | linkStop => exact cmdLinkStop_read hg h ps s
  | pinNode => exact cmdPinNode_read hg h ps s
  | unpinNode => exact cmdUnpinNode_read hg h ps s

/-! ### The taking of a command, and what is closed before it (R132, R150) -/

theorem answer_read (c : Command) (h : Host) (ps : List Byte) (s : State) : g (c.answer h ps s).state = g s := by
  obtain ⟨-, hr⟩ | ⟨-, -, -, hr⟩ | ⟨-, -, hr⟩ := answer_cases c h ps s
  · rw [hr, refuse]
  · rw [hr, refuse]
  · rw [hr, owner_read hg]

theorem settle_read_of_ignoresRecords (s : State) : g (settle s) = g s :=
  settle_read hg.hosts hg.slots hg.polls hg.writes hg.arbiters hg.nodes hg.links hg.choices hg.claims hg.due s

theorem runCommand_read (c : Command) (h : Host) (ps : List Byte) (s : State) : g (runCommand c h ps s) = g s := by
  unfold runCommand placeResult
  split
  · rfl
  · rw [withResult_read hg.hosts, answer_read hg, settle_read_of_ignoresRecords hg]

theorem controlWriteEnd_read (h : Host) (s : State) : g (controlWriteEnd h s) = g s := by
  unfold controlWriteEnd
  dsimp only
  repeat' split
  all_goals simp only [runCommand_read hg, hg.hosts]

theorem endTransaction_read (h : Host) (s : State) : g (endTransaction h s) = g s := by
  cases ht : s.transaction h with
  | idle => simp only [endTransaction, ht]
  | ignored => simp only [endTransaction, ht, hg.hosts]
  | controlWrite b ps => simp only [endTransaction, ht, controlWriteEnd_read hg]
  | controlRead start copy sent => simp only [endTransaction, controlReadEnd, ht, hg.hosts]
  | aliasWrite k w phase =>
    simp only [endTransaction, aliasWriteEnd, ht, grants_read hg.arbiters hg.writes hg.slots hg.polls,
      takeWrite_read hg.hosts hg.slots hg.polls hg.writes, hg.hosts]
  | aliasRead k w start snapshot sent fill => simp only [endTransaction, aliasReadEnd, ht, hg.hosts]

theorem judged_read (c : Command) (h : Host) (ps : List Byte) (s : State) : g (s.judged c h ps) = g s := by
  rw [State.judged, settle_read_of_ignoresRecords hg, closeFor]
  split
  · exact hg.hosts ..
  · exact endTransaction_read hg h s

end

/-! ## A setup command and its owning rule (R150 to R154) -/

/-- A command of the setup host, with its byte count, is answered by its owning rule: the ending before it leaves the host that
the straps select. -/
theorem exec_row_of_setupHost {c : Command} {h : Host} {ps : List Byte} {s t : State} {st : Status} {vs : List Byte}
    (hps : ps ≠ []) (hlen : ps.length = c.byteCount) (hsetup : h = s.setupHost)
    (hr : c.owner h ps (s.judged c h ps) = { status := st, values := vs, state := t }) :
    exec (c.row h ps) s = .next (t.withResult h c.address st vs) := by
  have hjudged : h = (s.judged c h ps).setupHost := hsetup.trans (judged_read ignoresRecords_setupHost c h ps s).symm
  have hanswer : c.answer h ps (s.judged c h ps) = c.owner h ps (s.judged c h ps) := by
    simp only [Command.answer, hlen, ← hjudged, ne_eq, not_true_eq_false, decide_false, Bool.and_false, Bool.false_eq_true,
      if_false]
  simp only [exec_row, takeCommand_eq c h ps s hps, hanswer, hr]

/-! ## SET_CLASS_PERIOD (R30, R31) -/

/-- R30: the legal periods are the powers of two from 2 to 1024. -/
theorem periodLegal_iff (p : Word16) : periodLegal p = true ↔ ∃ k : Nat, 1 ≤ k ∧ k ≤ 10 ∧ p.toNat = 2 ^ k := by
  have hpowers : periodLegal p = ((List.range' 1 10).map fun k => BitVec.ofNat 16 (2 ^ k)).contains p := rfl
  have hfits : ∀ k, k ≤ 10 → (BitVec.ofNat 16 (2 ^ k)).toNat = 2 ^ k := fun k hk => by
    rw [BitVec.toNat_ofNat]
    exact Nat.mod_eq_of_lt (Nat.pow_lt_pow_right (by decide) (by omega))
  rw [hpowers, List.contains_iff_mem, List.mem_map]
  constructor
  · rintro ⟨k, hk, rfl⟩
    have hbounds := List.mem_range'_1.1 hk
    exact ⟨k, by omega, by omega, hfits k (by omega)⟩
  · rintro ⟨k, hlow, hhigh, hp⟩
    exact ⟨k, List.mem_range'_1.2 (by omega), BitVec.eq_of_toNat_eq ((hfits k hhigh).trans hp.symm)⟩

theorem timedClassOfByte_eq_none {b : Byte} (h : 3 < b.toNat) : timedClassOfByte b = none := dif_neg (by omega)

theorem timedClassOfByte_eq_some {b : Byte} {c : Fin 4} (h : b.toNat = c.val) : timedClassOfByte b = some c := by
  simp [timedClassOfByte, h]

theorem cmdSetClassPeriod_badParam (h : Host) {cb p1 p0 : Byte} (s : State)
    (hbad : 3 < cb.toNat ∨ periodLegal (word16 p1 p0) = false) :
    cmdSetClassPeriod h [cb, p1, p0] s = refuse .badParam s := by
  rcases hbad with hcb | hp
  · simp only [cmdSetClassPeriod, timedClassOfByte_eq_none hcb]
  · simp only [cmdSetClassPeriod, hp, Bool.not_false, if_true]
    split <;> rfl

section
variable (h : Host) {cb p1 p0 : Byte} {c : Fin 4} {s : State}
variable (hcb : cb.toNat = c.val) (hp : periodLegal (word16 p1 p0) = true)
include hcb hp

/-- R31: the period the class already has. -/
theorem cmdSetClassPeriod_same (hold : word16 p1 p0 = s.periods.get c) :
    cmdSetClassPeriod h [cb, p1, p0] s = { status := .ok, values := bytes16 (s.periods.get c), state := s } := by
  simp only [cmdSetClassPeriod, timedClassOfByte_eq_some hcb, hp, Bool.not_true, Bool.false_eq_true, if_false, if_pos hold]

/-- R31, R43: another period, and with it another stale limit. -/
theorem cmdSetClassPeriod_replaced (hnew : word16 p1 p0 ≠ s.periods.get c) :
    cmdSetClassPeriod h [cb, p1, p0] s =
      { status := .ok, values := bytes16 (s.periods.get c),
        state := checkLimits { s with periods := upd s.periods c fun _ => word16 p1 p0 } } := by
  simp only [cmdSetClassPeriod, timedClassOfByte_eq_some hcb, hp, hnew, Bool.not_true, Bool.false_eq_true, if_false]

end

theorem exec_setClassPeriod {h : Host} {cb p1 p0 : Byte} {s t : State} {st : Status} {vs : List Byte} (hsetup : h = s.setupHost)
    (hr : cmdSetClassPeriod h [cb, p1, p0] (s.judged .setClassPeriod h [cb, p1, p0]) =
      { status := st, values := vs, state := t }) :
    exec (.setClassPeriod h [cb, p1, p0]) s = .next (t.withResult h 0xA0 st vs) :=
  exec_row_of_setupHost (c := .setClassPeriod) (by simp) rfl hsetup hr

/-- Settles O32: one case per outcome of the owning rule, each by its equation above. -/
theorem setClassPeriodReplacesPeriod : Obligations.SetClassPeriodReplacesPeriod := by
  intro h cb p1 p0 s hsetup s0 period legal
  have hlegal : periodLegal period = true ↔ legal := periodLegal_iff period
  refine ⟨fun hbad => ?refused, fun c hcb hp => ⟨fun hold => ?same, fun hnew => ?replaced⟩⟩
  case refused =>
    have hbad' : 3 < cb.toNat ∨ periodLegal period = false :=
      hbad.imp_right fun hp => Bool.eq_false_iff.2 fun hl => hp (hlegal.1 hl)
    exact exec_setClassPeriod hsetup (cmdSetClassPeriod_badParam h s0 hbad')
  case same =>
    rw [exec_setClassPeriod hsetup (cmdSetClassPeriod_same h hcb (hlegal.2 hp) hold), bytes16_eq]
  case replaced =>
    rw [exec_setClassPeriod hsetup (cmdSetClassPeriod_replaced h hcb (hlegal.2 hp) hnew), bytes16_eq]

end Sys2Proof.Machine

/-!
# The posted writes: DRAIN, the bytes of a write, its taking and its ending (Chapter 3, R138 to R141)

First the reads that an event alone does not change, then each owning rule by one equation per outcome, in the order in which a
write meets them: its bytes, its taking, its ending, and the DRAIN that covers it.
-/

namespace Sys2Proof.Machine

-- One proof at a time, as in the tests: a thread of its own for each would pass the memory limit of the check.
set_option Elab.async false

/-! ## One host's record replaced -/

section
variable (h : Host) {s : State}

theorem State.modHost_congr {f g : HostState → HostState} (hfg : f (s.hosts.get h) = g (s.hosts.get h)) :
    s.modHost h f = s.modHost h g := by
  simp only [State.modHost, upd_congr s.hosts h hfg]

theorem State.modHost_eq_self {f : HostState → HostState} (hf : f (s.hosts.get h) = s.hosts.get h) : s.modHost h f = s := by
  rw [State.modHost_congr h (g := fun hs => hs) hf, State.modHost, upd_id]

end

/-! ## Reads that no event changes

A host's drain record is read from the host's state, so the frames of Laws/Reads.lean do not speak of it; but the Mirror Table's
rules change a host only by handing it an event. -/

/-- `g` is not changed by an event handed to a host. -/
abbrev IgnoresEvents {α : Type} (g : State → α) : Prop := ∀ h b s, g (notify h b s) = g s

section
variable {α : Type} {g : State → α} (hE : IgnoresEvents g)
include hE

theorem entryEvent_read_of_ignoresEvents (i : SlotIx) (k : EventKind) (why : Reason) (s : State) :
    g (entryEvent i k why s) = g s := by
  refine forHosts_read _ (fun h s => ?_) s
  split
  · rfl
  · split
    · exact hE ..
    · rfl

variable (hS : IgnoresSlots g)
include hS

theorem evaluateWatches_read_of_ignoresEvents (i : SlotIx) (s : State) : g (evaluateWatches i s) = g s := by
  refine forHosts_read _ (fun h s => ?_) s
  unfold evaluateWatch
  dsimp only
  repeat' split
  all_goals simp only [hE, modEntry_read hS]

theorem mirrorWriteOk_read_of_ignoresEvents (n : Node) (a : Word16) (bytes : List Byte) (s : State) :
    g (mirrorWriteOk n a bytes s) = g s := by
  refine forEntries_read _ _ (fun i s => ?_) s
  unfold writeIntoEntry
  split
  · rfl
  · simp only [evaluateWatches_read_of_ignoresEvents hE hS]
    split <;> simp only [entryEvent_read_of_ignoresEvents hE, modEntry_read hS]

end

theorem HostState.receive_drain (stamp : Word16) (b : EventBody) (hs : HostState) : (hs.receive stamp b).drain = hs.drain := by
  obtain ⟨-, hr⟩ | ⟨-, n, hr⟩ | ⟨-, -, hr⟩ | ⟨-, -, hr⟩ := receive_cases stamp b hs <;> rw [hr]

theorem ignoresEvents_drain (h : Host) : IgnoresEvents fun s => (s.hosts.get h).drain := by
  intro k b s
  simp only [notify_hosts]
  split
  · next hk => rw [HostState.receive_drain, hk]
  · rfl

/-! ## The host's reservation (R48, R49) -/

section
variable {s : State} {h : Host} {l : Link}

theorem State.reservation_eq_none (hno : ∀ r ∈ (s.writeQueues.get l).reserved, r.origin ≠ h) : s.reservation h l = none := by
  simpa [State.reservation] using hno

theorem State.reservation_eq_some {r : WriteRecord} (hr : r ∈ (s.writeQueues.get l).reserved) (ho : r.origin = h)
    (honly : ∀ x ∈ (s.writeQueues.get l).reserved, x.origin = h → x = r) : s.reservation h l = some r := by
  obtain ⟨x, hx⟩ : ∃ x, s.reservation h l = some x :=
    Option.isSome_iff_exists.1 (List.find?_isSome.2 ⟨r, hr, by simpa using ho⟩)
  have hxh : x.origin = h := by simpa using List.find?_some hx
  rw [hx, honly x (List.mem_of_find?_eq_some hx) hxh]

/-- R49: what leaves room for one more byte. -/
theorem State.refusesByte_eq_false_iff {w : AliasSlot} {r : WriteRecord} (hr : s.reservation h (nodeLink w.node) = some r)
    (p : Nat) : s.refusesByte h w p = false ↔
      r.data.length + 1 ≤ 8 ∧ r.data.length + 1 ≤ s.maxLength w.node ∧ p < w.size := by
  simp [State.refusesByte, hr, and_assoc]

end

/-! ## The bytes of a write (R49, R138 to R141) -/

theorem commandAt_isSome_iff (p : Byte) : (commandAt p).isSome = true ↔ ∃ c : Command, c.address = p := by
  constructor
  · intro hp
    obtain ⟨c, hc⟩ := Option.isSome_iff_exists.1 hp
    exact ⟨c, by simpa using List.find?_some hc⟩
  · rintro ⟨c, rfl⟩
    rw [commandAt_address, Option.isSome_some]

section
variable {h : Host} {s : State} (b : Byte)

/-- R48, R134: no byte of a transaction the part takes no part in is acknowledged. -/
theorem writeBytes_ignored (ht : s.transaction h = .ignored) :
    registerByte h b s = refuseAddress h s ∧ aliasDataByte h b s = refuseAddress h s
      ∧ controlDataByte h b s = refuseAddress h s := by
  simp only [registerByte, aliasDataByte, controlDataByte, ht, and_self]

theorem registerByte_control {bytes : List Byte} (ht : s.transaction h = .controlWrite none bytes) :
    registerByte h b s = s.modHost h fun hs =>
      { hs with pointer := b, answer := .ack, transaction := .controlWrite (some b) bytes } := by
  simp only [registerByte, ht]

section
variable {p : Byte} {bytes : List Byte} (ht : s.transaction h = .controlWrite (some p) bytes)
include ht

theorem controlDataByte_acknowledged (hc : ∃ c : Command, c.address = p) (hlen : bytes.length < 16) :
    controlDataByte h b s = s.modHost h fun hs =>
      { hs with pointer := hs.pointer + 1, answer := .ack, transaction := .controlWrite (some p) (bytes ++ [b]) } := by
  simp only [controlDataByte, ht, (commandAt_isSome_iff p).2 hc, hlen, and_self, if_true]

theorem controlDataByte_refused (hno : ¬ ((∃ c : Command, c.address = p) ∧ bytes.length < 16)) :
    controlDataByte h b s = s.modHost h fun hs => { hs with answer := .nack } := by
  rw [← commandAt_isSome_iff] at hno
  simp only [controlDataByte, ht, if_neg hno]

end

section
variable {k : AliasIx} {w : AliasSlot}

theorem registerByte_alias (ht : s.transaction h = .aliasWrite k w .register) :
    registerByte h b s = aliasRegister h k w b s := by
  simp only [registerByte, ht]

theorem aliasRegister_inside (hb : b.toNat < w.size) :
    aliasRegister h k w b s =
      (modReservation h (nodeLink w.node) (fun r => { r with address := w.base + b.setWidth 16 }) s).modHost h fun hs =>
        { hs with pointer := b, answer := .ack, transaction := .aliasWrite k w (.data b.toNat) } := if_pos hb

theorem aliasRegister_outside (hb : w.size ≤ b.toNat) :
    aliasRegister h k w b s =
      (dropReservation h (nodeLink w.node) s).modHost h (HostState.answerWith .nack (.aliasWrite k w .refused)) :=
  if_neg (Nat.not_lt.2 hb)

theorem aliasDataByte_afterRefusal (ht : s.transaction h = .aliasWrite k w .refused) :
    aliasDataByte h b s = s.modHost h (HostState.answerWith .nack (.aliasWrite k w .refused)) := by
  simp only [aliasDataByte, ht]

variable {p : Nat} (ht : s.transaction h = .aliasWrite k w (.data p))
include ht

theorem aliasDataByte_refused (hno : s.refusesByte h w p = true) :
    aliasDataByte h b s = s.modHost h (HostState.answerWith .nack (.aliasWrite k w .refused)) := by
  simp only [aliasDataByte, ht, hno, if_true]

theorem aliasDataByte_stored (hroom : s.refusesByte h w p = false) :
    aliasDataByte h b s =
      (modReservation h (nodeLink w.node) (fun r => { r with data := r.data ++ [b] }) s).modHost h fun hs =>
        { hs with pointer := hs.pointer + 1, answer := .ack, transaction := .aliasWrite k w (.data (p + 1)) } := by
  simp only [aliasDataByte, ht, hroom, Bool.false_eq_true, if_false]

end

end

/-- Settles O57: one case per open transaction, and in it one per judgment of the byte. -/
theorem writeBytesJudged : Obligations.WriteBytesJudged := by
  intro h b s hs answer refusedAll
  refine ⟨?ignored, ?controlRegister, ?controlData, ?afterRefusal, ?aliasRegister, ?aliasData⟩
  case ignored =>
    intro ht
    obtain ⟨hregister, halias, hcontrol⟩ := writeBytes_ignored b ht
    exact ⟨congrArg Host.Outcome.next hregister, congrArg Host.Outcome.next halias, congrArg Host.Outcome.next hcontrol,
      congrArg Host.Outcome.next hcontrol⟩
  case controlRegister =>
    exact fun bytes ht => congrArg Host.Outcome.next (registerByte_control b ht)
  case controlData =>
    refine fun p bytes ht => ⟨fun hc hlen => ?_, fun _ hlen => ?_, fun hno => ?_⟩
    · exact congrArg Host.Outcome.next (controlDataByte_acknowledged b ht hc hlen)
    · exact congrArg Host.Outcome.next (controlDataByte_refused b ht fun hok => Nat.not_lt.2 hlen hok.2)
    · exact congrArg Host.Outcome.next (controlDataByte_refused b ht fun ⟨⟨c, hc⟩, _⟩ => hno c hc)
  case afterRefusal =>
    exact fun k w ht => congrArg Host.Outcome.next (aliasDataByte_afterRefusal b ht)
  case aliasRegister =>
    refine fun k w ht => ⟨fun hb => ?_, fun hb => ?_⟩
    · exact congrArg Host.Outcome.next ((registerByte_alias b ht).trans (aliasRegister_inside b hb))
    · exact congrArg Host.Outcome.next ((registerByte_alias b ht).trans (aliasRegister_outside b hb))
  case aliasData =>
    intro k w p r ht hr ho honly room
    have hroom := State.refusesByte_eq_false_iff (State.reservation_eq_some hr ho honly) p
    refine ⟨fun hno => ?_, fun hyes => ?_⟩
    · exact congrArg Host.Outcome.next (aliasDataByte_refused b ht (eq_true_of_ne_false (mt hroom.1 hno)))
    · exact congrArg Host.Outcome.next (aliasDataByte_stored b ht (hroom.2 hyes))

/-! ## Taking (R47, R51, R52) -/

/-- R47: a counter that goes on to 1 after its greatest value. -/
theorem incSkipZero_eq_ite (x : Word16) : incSkipZero x = if x = 65535 then 1 else x + 1 := by
  have hwraps : x + 1 = 0 ↔ x = 65535 := by bv_omega
  simp only [incSkipZero, hwraps]

section
variable {h : Host} {l : Link} {s : State}

theorem takeWrite_none (hno : s.reservation h l = none) : takeWrite h l s = s := by
  simp only [takeWrite, hno]

variable {r : WriteRecord} (hr : s.reservation h l = some r)
include hr

theorem takeWrite_empty (hdata : r.data = []) : takeWrite h l s = dropReservation h l s := by
  simp only [takeWrite, hr, hdata, List.isEmpty_nil, if_true]

variable (hdata : r.data ≠ []) {seq : Word16} (hseq : incSkipZero (s.hosts.get h).seqCounter = seq)
include hdata hseq

theorem takeWrite_queued (hlapse : r.lapse = none) :
    takeWrite h l s =
      ((dropReservation h l s).modHost h fun hs => { hs with seqCounter := seq }).modWrites l fun q =>
        { q with order := q.order ++ [{ r with seq := some seq, state := .queued }] } := by
  subst hseq
  simp only [takeWrite, hr, List.isEmpty_eq_false_iff.2 hdata, hlapse, Bool.false_eq_true, if_false]
  rfl

theorem takeWrite_lapsed {why : Reason} (hlapse : r.lapse = some why) :
    takeWrite h l s =
      finishWrite l { r with seq := some seq } why
        ((dropReservation h l s).modHost h fun hs => { hs with seqCounter := seq }) := by
  subst hseq
  simp only [takeWrite, hr, List.isEmpty_eq_false_iff.2 hdata, hlapse, Bool.false_eq_true, if_false]
  rfl

end

theorem aliasWriteEnd_eq {h : Host} {k : AliasIx} {w : AliasSlot} {phase : AliasWritePhase} {s : State}
    (ht : s.transaction h = .aliasWrite k w phase) :
    aliasWriteEnd h s =
      grants (takeWrite h (nodeLink w.node) (s.modHost h fun hs => { hs with transaction := .idle })) := by
  simp only [aliasWriteEnd, ht]

/-- Settles O60: the host's reservation as it is found, and the four things its taking can be. -/
theorem aliasWriteEndTakesWrite : Obligations.AliasWriteEndTakesWrite := by
  intro h s k w phase ht l idle returned
  have hend {t : State} (htake : takeWrite h l idle = t) : exec (.aliasWriteEnd h) s = .next (grants t) :=
    congrArg Host.Outcome.next ((aliasWriteEnd_eq ht).trans (congrArg grants htake))
  refine ⟨fun hno => hend (takeWrite_none (State.reservation_eq_none hno)), fun r hr ho honly => ?_⟩
  intro seq numbered
  have hres : idle.reservation h l = some r := State.reservation_eq_some hr ho honly
  have hseq : incSkipZero (idle.hosts.get h).seqCounter = seq := by
    simp only [idle, seq, State.modHost_hosts, get_upd_self, incSkipZero_eq_ite]
  refine ⟨fun hdata => hend (takeWrite_empty hres hdata), 
    fun hdata hlapse => hend (takeWrite_queued hres hdata hseq hlapse),
    fun why hdata hlapse => hend (takeWrite_lapsed hres hdata hseq hlapse)⟩

/-! ## Endings (R55, R56) and DRAIN accounting (R62) -/

/-- R55, R56: the Mirror Table takes the outcome of a write. -/
def mirrorEnding (r : WriteRecord) (outcome : Reason) (s : State) : State :=
  if outcome = .ok then mirrorWriteOk r.node r.address r.data s else mirrorWriteFailed r.node r.address r.data.length s

/-- R55, R56: and its origin host is told of a reported failure. -/
def tellEnding (r : WriteRecord) (outcome : Reason) (s : State) : State :=
  if outcome ≠ .ok ∧ r.reported = true then notify r.origin (writeFailedEvent r outcome) (mirrorEnding r outcome s)
  else mirrorEnding r outcome s

/-- R55, R56: a record leaves the taken ones. -/
def freeRecord (r : WriteRecord) (q : WriteQueue) : WriteQueue := { q with order := q.order.erase r }

/-- The rules of a write's ending in their order. -/
theorem finishWrite_eq (l : Link) (r : WriteRecord) (outcome : Reason) (s : State) :
    finishWrite l r outcome s =
      let told := tellEnding r outcome s
      let counted := if r.covered = true ∧ outcome ≠ .ok then countDrainFailure r.origin told else told
      let freed := counted.modWrites l (freeRecord r)
      if r.covered then completeDrain r.origin freed else freed := by
  by_cases ho : outcome = .ok <;> simp [finishWrite, tellEnding, mirrorEnding, ho] <;> rfl

theorem tellEnding_writeQueues (r : WriteRecord) (outcome : Reason) (s : State) :
    (tellEnding r outcome s).writeQueues = s.writeQueues := by
  have hmirror : (mirrorEnding r outcome s).writeQueues = s.writeQueues := by
    unfold mirrorEnding
    split
    · exact mirrorWriteOk_read (g := State.writeQueues) (fun _ _ _ => rfl) (fun _ _ _ => rfl) ..
    · exact mirrorWriteFailed_read (g := State.writeQueues) (fun _ _ _ => rfl) (fun _ _ _ => rfl) ..
  unfold tellEnding
  split <;> exact hmirror

theorem tellEnding_drain (r : WriteRecord) (outcome : Reason) (h : Host) (s : State) :
    ((tellEnding r outcome s).hosts.get h).drain = (s.hosts.get h).drain := by
  have hmirror : ((mirrorEnding r outcome s).hosts.get h).drain = (s.hosts.get h).drain := by
    unfold mirrorEnding
    split
    · exact mirrorWriteOk_read_of_ignoresEvents (ignoresEvents_drain h) (fun _ _ _ => rfl) ..
    · exact congrArg (fun hosts : Vector HostState 3 => (hosts.get h).drain)
        (mirrorWriteFailed_read (g := State.hosts) (fun _ _ _ => rfl) (fun _ _ _ => rfl) ..)
  unfold tellEnding
  split
  · exact (ignoresEvents_drain h ..).trans hmirror
  · exact hmirror

theorem State.coveredLeft_eq_true_iff (s : State) (h : Host) :
    s.coveredLeft h = true ↔ ∃ l, ∃ x ∈ (s.writeQueues.get l).order, x.origin = h ∧ x.covered = true := by
  simp only [State.coveredLeft, List.any_eq_true, List.mem_finRange, true_and, Bool.and_eq_true, decide_eq_true_eq]

section
variable {h : Host} {s : State} {d : DrainRecord} (hd : (s.hosts.get h).drain = some d)
include hd

/-- R62: only a failure is counted. -/
theorem countDrainFailure_if (failed : Prop) [Decidable failed] :
    (if failed then countDrainFailure h s else s) = s.modHost h fun hs =>
      { hs with drain := some { d with failed := if failed then d.failed + 1 else d.failed } } := by
  split
  · exact State.modHost_congr h (by simp only [hd, Option.map_some])
  · exact (State.modHost_eq_self h (by simp only [← hd])).symm

theorem completeDrain_waits (hleft : s.coveredLeft h = true) : completeDrain h s = s := by
  simp only [completeDrain, hd, hleft, if_true]

theorem completeDrain_done (hnone : s.coveredLeft h = false) :
    completeDrain h s =
      (notify h (eventOf .drainDone 0 Reason.ok.code (word16 (byteOf d.covered) (byteOf d.failed))) s).modHost h fun hs =>
        { hs with drain := none } := by
  simp only [completeDrain, hd, hnone, Bool.false_eq_true, if_false]

end

theorem finishWrite_uncovered (l : Link) {r : WriteRecord} (outcome : Reason) (s : State) (hc : r.covered = false) :
    finishWrite l r outcome s = (tellEnding r outcome s).modWrites l (freeRecord r) := by
  simp only [finishWrite_eq, hc, Bool.false_eq_true, false_and, if_false]

/-- R62: the drain record of a covered record counts its failure, and then the DRAIN may be complete. -/
theorem finishWrite_covered (l : Link) {r : WriteRecord} (outcome : Reason) {s : State} (hc : r.covered = true)
    {d : DrainRecord} (hd : (s.hosts.get r.origin).drain = some d) :
    finishWrite l r outcome s =
      completeDrain r.origin (((tellEnding r outcome s).modWrites l (freeRecord r)).modHost r.origin fun hs =>
        { hs with drain := some { d with failed := if outcome = .ok then d.failed else d.failed + 1 } }) := by
  have htold := (tellEnding_drain r outcome r.origin s).trans hd
  simp only [finishWrite_eq, hc, true_and, if_true, countDrainFailure_if htold, ite_not]
  rfl

/-- Settles O49: an uncovered record is freed alone; for a covered one the queues after its freeing say whether the DRAIN goes
on. -/
theorem writeEndingReportsAndFrees : Obligations.WriteEndingReportsAndFrees := by
  intro l r outcome s mirrored told others left
  have htold : told = tellEnding r outcome s := by
    have hmirror : mirrored = mirrorEnding r outcome s := rfl
    simp only [told, tellEnding, ← hmirror]
    rfl
  have hothers : others = freeRecord r := rfl
  refine ⟨fun hc => ?_, fun hc d hd => ?_⟩
  · rw [finishWrite_uncovered l outcome s hc, htold, hothers]
  intro failed counted
  have hfinish : finishWrite l r outcome s = completeDrain r.origin counted := by
    rw [finishWrite_covered l outcome hc hd, ← htold, ← hothers]
  have hdrain : (counted.hosts.get r.origin).drain = some { d with failed := failed } := by
    simp only [counted, State.modHost_hosts, get_upd_self]
  have horder (m : Link) :
      (counted.writeQueues.get m).order = (if m = l then others (s.writeQueues.get m) else s.writeQueues.get m).order := by
    have hqueues : told.writeQueues = s.writeQueues := by rw [htold, tellEnding_writeQueues]
    simp only [counted, State.modHost_writeQueues, State.modWrites_writeQueues, hqueues, get_upd]
    split
    · next hm => rw [hm]
    · rfl
  have hleft : counted.coveredLeft r.origin = true ↔ left := by
    simp only [State.coveredLeft_eq_true_iff, horder, left]
  refine ⟨fun hyes => hfinish.trans (completeDrain_waits hdrain (hleft.2 hyes)), fun hno => hfinish.trans ?_⟩
  exact completeDrain_done (d := { d with failed := failed }) hdrain (Bool.eq_false_iff.2 (mt hleft.1 hno))

/-! ## DRAIN (R61) -/

theorem exec_drain {h : Host} {b : Byte} {s t : State} {st : Status} {vs : List Byte}
    (hr : cmdDrain h [b] (s.judged .drain h [b]) = { status := st, values := vs, state := t }) :
    exec (.drain h [b]) s = .next (t.withResult h 0x8D st vs) :=
  exec_row_of_owner (c := .drain) (by simp) rfl rfl hr

/-- R61: both queues are searched for covered records. -/
theorem State.drainCount_eq (s : State) (h : Host) :
    s.drainCount h =
      (s.writeQueues.get 0).order.countP (drainCovers h) + (s.writeQueues.get 1).order.countP (drainCovers h) := by
  simp [State.drainCount, List.finRange_succ, List.countP_eq_length_filter]

/-- R61: a record that a DRAIN covers, in the rule's own words. -/
theorem drainCovers_eq (h : Host) :
    drainCovers h = fun r =>
      decide (r.origin = h ∧ r.reported = true ∧ (r.state = .queued ∨ r.state = .outstanding ∨ r.state = .held)) := by
  funext r
  simp only [drainCovers, Bool.decide_and, Bool.decide_eq_true, Bool.and_assoc]

section
variable {h : Host} {s : State} (ps : List Byte)

theorem cmdDrain_busy (hd : (s.hosts.get h).drain ≠ none) : cmdDrain h ps s = refuse .busy s := by
  simp only [cmdDrain, Option.isSome_iff_ne_none.2 hd, if_true]

variable (hd : (s.hosts.get h).drain = none)
include hd

theorem cmdDrain_nothing (hzero : s.drainCount h = 0) :
    cmdDrain h ps s =
      { status := .ok, values := bytes16 (s.hosts.get h).seqCounter ++ [0],
        state := notify h (eventOf .drainDone 0 Reason.ok.code 0) s } := by
  simp only [cmdDrain, hd, hzero, Option.isSome_none, Bool.false_eq_true, if_false, if_true]

theorem cmdDrain_accepted (hsome : s.drainCount h ≠ 0) :
    cmdDrain h ps s =
      { status := .accepted, values := bytes16 (s.hosts.get h).seqCounter ++ [byteOf (s.drainCount h)],
        state := (markCovered h s).modHost h fun hs =>
          { hs with drain := some { counter := hs.seqCounter, covered := s.drainCount h, failed := 0 } } } := by
  simp only [cmdDrain, hd, hsome, Option.isSome_none, Bool.false_eq_true, if_false]
  rfl

end

/-- Settles O27: one case per outcome of the owning rule, each by its equation above. -/
theorem drainCoversOwnWrites : Obligations.DrainCoversOwnWrites := by
  intro h b s s0 hs covers n counter mark
  have hcovers : drainCovers h = covers := drainCovers_eq h
  have hn : s0.drainCount h = n := by rw [State.drainCount_eq, hcovers]
  refine ⟨fun hd => exec_drain (cmdDrain_busy _ hd), fun hd hzero => ?_, fun hd hsome => ?_⟩
  · rw [exec_drain (cmdDrain_nothing _ hd (hn.trans hzero)), bytes16_eq]
  · rw [exec_drain (cmdDrain_accepted _ hd (hn.trans_ne hsome)), bytes16_eq, hn]
    unfold markCovered
    rw [hcovers]

end Sys2Proof.Machine

/-!
# The claims of a node: CLAIM, RENEW and UNCLAIM (Chapter 4)

First the one place a host can have in a claim record, and the lease that starts in it; then each owning rule by one equation per
outcome, and last the statements, each assembled from these.
-/

namespace Sys2Proof.Machine

-- One proof at a time, as in the tests: a thread of its own for each would pass the memory limit of the check.
set_option Elab.async false

/-! ## A host's place in a claim record (R64) -/

section
variable {s : State} {h : Host} {n : Node}

theorem State.holdsClaim_eq_true {k : Holding} (hk : (s.claims.get n).holder = some k) (hh : k.host = h) :
    s.holdsClaim h n = true := by
  simp [State.holdsClaim, hk, hh]

theorem State.holdsClaim_eq_false (hno : ∀ k, (s.claims.get n).holder = some k → k.host ≠ h) :
    s.holdsClaim h n = false := by
  simpa [State.holdsClaim, Option.any_eq_false] using hno

end

section
variable {c : ClaimRecord} {h : Host}

/-- A host's place is that of the first of its waiter items. -/
theorem ClaimRecord.waitIndex_eq_some {before after : List Waiter} {w : Waiter} (hc : c.waiters = before ++ w :: after)
    (hw : w.host = h) (hfirst : ∀ x ∈ before, x.host ≠ h) : c.waitIndex h = some before.length := by
  have hbefore : before.findIdx? (fun x => decide (x.host = h)) = none := by simpa using hfirst
  simp [ClaimRecord.waitIndex, hc, List.findIdx?_append, hbefore, List.findIdx?_cons, hw]

theorem ClaimRecord.waitIndex_eq_none (hno : ∀ w ∈ c.waiters, w.host ≠ h) : c.waitIndex h = none := by
  simpa [ClaimRecord.waitIndex] using hno

theorem ClaimRecord.waitIndex_isSome (hw : ∃ w ∈ c.waiters, w.host = h) : (c.waitIndex h).isSome = true := by
  simpa [ClaimRecord.waitIndex] using hw

end

/-! ## The lease that starts, and the release (R65, R68) -/

theorem State.modClaim_modClaim (n : Node) (f g : ClaimRecord → ClaimRecord) (s : State) :
    (s.modClaim n f).modClaim n g = s.modClaim n fun c => g (f c) := by
  simp only [State.modClaim, upd_upd]

theorem State.leaseEndLow_of_holder {s : State} {n : Node} {k : Holding} (hk : (s.claims.get n).holder = some k) :
    s.leaseEndLow n = low16 k.leaseEnd := by
  simp [State.leaseEndLow, hk]

@[simp] theorem startLease_leaseEndLow (n : Node) (h : Host) (lease : Byte) (s : State) :
    (startLease n h lease s).leaseEndLow n = low16 (leaseEndAt s.timeBase lease) := by
  simp [startLease, State.leaseEndLow]

theorem byteOf_congr {a b : Nat} (hab : a % 256 = b % 256) : byteOf a = byteOf b :=
  BitVec.eq_of_toNat_eq (by simpa [byteOf] using hab)

/-- R67, R69: the two bytes of a lease end are those of its low 16 bits. -/
theorem bytes16_low16 (w : Word32) : bytes16 (low16 w) = [byteOf (w.toNat / 256), byteOf w.toNat] := by
  have hlow : (low16 w).toNat = w.toNat % 65536 := BitVec.toNat_setWidth ..
  have hhigh : byteOf (w.toNat % 65536 / 256) = byteOf (w.toNat / 256) := byteOf_congr (by omega)
  rw [bytes16_eq, hlow, hhigh, byteOf_congr (Nat.mod_mod_of_dvd w.toNat (by decide))]

theorem releaseClaim_free {n : Node} {s : State} (hnone : (s.claims.get n).waiters = []) :
    releaseClaim n s = s.modClaim n fun c => { c with holder := none } := by
  simp only [releaseClaim, hnone]

/-- R68: the head waiter's lease starts at once, and it is told the lease end. -/
theorem releaseClaim_granted {n : Node} {s : State} {w : Waiter} {rest : List Waiter}
    (hhead : (s.claims.get n).waiters = w :: rest) :
    releaseClaim n s =
      notify w.host (eventOf .claimGranted (nodeRef n) Reason.granted.code (low16 (leaseEndAt s.timeBase w.lease)))
        (s.modClaim n fun _ =>
          { holder := some { host := w.host, lease := w.lease, leaseEnd := leaseEndAt s.timeBase w.lease },
            waiters := rest }) := by
  simp only [releaseClaim, hhead, startLease_leaseEndLow, State.modClaim_timeBase]
  simp only [startLease, State.modClaim_modClaim, State.modClaim_timeBase]

/-! ## CLAIM (R66, R67) -/

theorem exec_claim {h : Host} {nb lease : Byte} {s t : State} {st : Status} {vs : List Byte}
    (hr : cmdClaim h [nb, lease] (s.judged .claim h [nb, lease]) = { status := st, values := vs, state := t }) :
    exec (.claim h [nb, lease]) s = .next (t.withResult h 0x90 st vs) :=
  exec_row_of_owner (c := .claim) (by simp) rfl rfl hr

/-- R66: the byte names no node, or the lease has no length. -/
theorem cmdClaim_badParam (h : Host) {nb lease : Byte} (s : State) (hbad : nodeOfRef nb = none ∨ lease = 0) :
    cmdClaim h [nb, lease] s = refuse .badParam s := by
  simp only [cmdClaim]
  split
  · rfl
  · next n hn => rw [if_pos (hbad.resolve_left (by simp [hn]))]

section
variable {h : Host} {nb lease : Byte} {s : State} {n : Node} (hn : nodeOfRef nb = some n) (hlease : lease ≠ 0)
include hn hlease

theorem cmdClaim_granted (hfree : (s.claims.get n).holder = none) :
    cmdClaim h [nb, lease] s =
      { status := .granted, values := bytes16 (low16 (leaseEndAt s.timeBase lease)), state := startLease n h lease s } := by
  simp only [cmdClaim, hn, hlease, hfree, startLease_leaseEndLow, if_false]

variable {k : Holding} (hk : (s.claims.get n).holder = some k)
include hk

theorem cmdClaim_alreadyHeld (hh : k.host = h) :
    cmdClaim h [nb, lease] s = { status := .alreadyHeld, values := bytes16 (low16 k.leaseEnd), state := s } := by
  simp only [cmdClaim, hn, hlease, hk, hh, State.leaseEndLow_of_holder hk, if_false, if_true]

variable (hother : k.host ≠ h)
include hother

theorem cmdClaim_alreadyWaiting {p : Nat} (hp : (s.claims.get n).waitIndex h = some p) :
    cmdClaim h [nb, lease] s = { status := .alreadyWaiting, values := [byteOf (p + 1)], state := s } := by
  simp only [cmdClaim, hn, hlease, hk, hother, hp, if_false]

theorem cmdClaim_waiting (hp : (s.claims.get n).waitIndex h = none) :
    cmdClaim h [nb, lease] s =
      { status := .waiting, values := [byteOf ((s.claims.get n).waiters.length + 1)],
        state := s.modClaim n fun c => { c with waiters := c.waiters ++ [{ host := h, lease := lease }] } } := by
  simp only [cmdClaim, hn, hlease, hk, hother, hp, if_false]

end

/-! ## RENEW (R69) -/

theorem exec_renew {h : Host} {nb lease : Byte} {s t : State} {st : Status} {vs : List Byte}
    (hr : cmdRenew h [nb, lease] (s.judged .renew h [nb, lease]) = { status := st, values := vs, state := t }) :
    exec (.renew h [nb, lease]) s = .next (t.withResult h 0x91 st vs) :=
  exec_row_of_owner (c := .renew) (by simp) rfl rfl hr

/-- R69: the same two bytes are judged by the same bounds. -/
theorem cmdRenew_badParam (h : Host) {nb lease : Byte} (s : State) (hbad : nodeOfRef nb = none ∨ lease = 0) :
    cmdRenew h [nb, lease] s = refuse .badParam s := by
  simp only [cmdRenew]
  split
  · rfl
  · next n hn => rw [if_pos (hbad.resolve_left (by simp [hn]))]

section
variable {h : Host} {nb lease : Byte} {s : State} {n : Node} (hn : nodeOfRef nb = some n) (hlease : lease ≠ 0)
include hn hlease

theorem cmdRenew_ok (hheld : s.holdsClaim h n = true) :
    cmdRenew h [nb, lease] s =
      { status := .ok, values := bytes16 (low16 (leaseEndAt s.timeBase lease)), state := startLease n h lease s } := by
  simp only [cmdRenew, hn, hlease, hheld, startLease_leaseEndLow, if_false, if_true]

theorem cmdRenew_notHolder (hheld : s.holdsClaim h n = false) : cmdRenew h [nb, lease] s = refuse .notHolder s := by
  simp only [cmdRenew, hn, hlease, hheld, Bool.false_eq_true, if_false]

end

/-- Settles O28: the place of the host in the record decides the outcome; a lease end is answered by its low two bytes. -/
theorem claimAndRenew : Obligations.ClaimAndRenew := by
  intro h nb lease s s0 r0 endBytes starts
  have hend (w : Word32) : bytes16 (low16 w) = endBytes w := bytes16_low16 w
  refine ⟨fun hbad => ⟨exec_claim (cmdClaim_badParam h _ hbad), exec_renew (cmdRenew_badParam h _ hbad)⟩,
    fun n hn hlease => ⟨?granted, ?alreadyHeld, ?alreadyWaiting, ?waiting, ?renewed, ?notHolder⟩⟩
  case granted =>
    intro hfree
    rw [exec_claim (cmdClaim_granted hn hlease hfree), hend]
    rfl
  case alreadyHeld =>
    intro k hk hh
    rw [exec_claim (cmdClaim_alreadyHeld hn hlease hk hh), hend]
  case alreadyWaiting =>
    intro k before w after hk hother hwait hw hfirst
    exact exec_claim (cmdClaim_alreadyWaiting hn hlease hk hother (ClaimRecord.waitIndex_eq_some hwait hw hfirst))
  case waiting =>
    intro k hk hother hno
    exact exec_claim (cmdClaim_waiting hn hlease hk hother (ClaimRecord.waitIndex_eq_none hno))
  case renewed =>
    intro k hk hh
    rw [exec_renew (cmdRenew_ok hn hlease (State.holdsClaim_eq_true hk hh)), hend]
    rfl
  case notHolder =>
    exact fun hno => exec_renew (cmdRenew_notHolder hn hlease (State.holdsClaim_eq_false hno))

/-! ## UNCLAIM (R70, R71) -/

theorem exec_unclaim {h : Host} {nb : Byte} {s t : State} {st : Status} {vs : List Byte}
    (hr : cmdUnclaim h [nb] (s.judged .unclaim h [nb]) = { status := st, values := vs, state := t }) :
    exec (.unclaim h [nb]) s = .next (t.withResult h 0x92 st vs) :=
  exec_row_of_owner (c := .unclaim) (by simp) rfl rfl hr

theorem cmdUnclaim_badParam (h : Host) {nb : Byte} (s : State) (hn : nodeOfRef nb = none) :
    cmdUnclaim h [nb] s = refuse .badParam s := by
  simp only [cmdUnclaim, hn]

section
variable {h : Host} {nb : Byte} {s : State} {n : Node} (hn : nodeOfRef nb = some n)
include hn

theorem cmdUnclaim_released (hheld : s.holdsClaim h n = true) :
    cmdUnclaim h [nb] s = { status := .ok, values := [1], state := releaseClaim n s } := by
  simp only [cmdUnclaim, hn, hheld, if_true]

variable (hheld : s.holdsClaim h n = false)
include hheld

theorem cmdUnclaim_withdrawn (hwaits : ((s.claims.get n).waitIndex h).isSome = true) :
    cmdUnclaim h [nb] s = { status := .ok, values := [2], state := withdrawWait n h s } := by
  simp only [cmdUnclaim, hn, hheld, hwaits, Bool.false_eq_true, if_false, if_true]

theorem cmdUnclaim_notHolder (hno : (s.claims.get n).waitIndex h = none) :
    cmdUnclaim h [nb] s = refuse .notHolder s := by
  simp only [cmdUnclaim, hn, hheld, hno, Option.isSome_none, Bool.false_eq_true, if_false]

end

/-- Settles O29: the holder's release by the wait list it leaves behind; any other host by its place on that list. -/
theorem unclaimReleasesOrWithdraws : Obligations.UnclaimReleasesOrWithdraws := by
  intro h nb s s0
  refine ⟨fun hn => exec_unclaim (cmdUnclaim_badParam h _ hn), fun n hn => ⟨fun k hk hh => ?holder, fun hno => ?other⟩⟩
  case holder =>
    have hexec := exec_unclaim (cmdUnclaim_released hn (State.holdsClaim_eq_true hk hh))
    refine ⟨fun hnone => ?_, fun w rest hhead => ?_⟩
    · rw [hexec, releaseClaim_free hnone]
    · rw [hexec, releaseClaim_granted hhead]
      rfl
  case other =>
    have hheld : s0.holdsClaim h n = false := State.holdsClaim_eq_false hno
    exact ⟨fun hwaits => exec_unclaim (cmdUnclaim_withdrawn hn hheld (ClaimRecord.waitIndex_isSome hwaits)),
      fun hnone => exec_unclaim (cmdUnclaim_notHolder hn hheld (ClaimRecord.waitIndex_eq_none hnone))⟩

end Sys2Proof.Machine

/-!
# The settings and the start of a link: SET_LINK_TIMING and LINK_START (sections 6.3 and 6.6)

First the operands, then each owning rule by one equation per outcome, and last the statement, assembled from these.
-/

namespace Sys2Proof.Machine

-- One proof at a time, as in the tests: a thread of its own for each would pass the memory limit of the check.
set_option Elab.async false

/-! ## The link and the flag a byte names -/

theorem linkOfByte_eq_none {b : Byte} (h : 1 < b.toNat) : linkOfByte b = none := dif_neg (by omega)

theorem linkOfByte_eq_some {b : Byte} {l : Link} (h : b.toNat = l.val) : linkOfByte b = some l := by
  simp [linkOfByte, h, Nat.le_of_lt_succ l.isLt]

theorem flagOfByte_eq_none {b : Byte} (h : 1 < b.toNat) : flagOfByte b = none := by
  have hzero : b ≠ 0 := by rintro rfl; contradiction
  have hone : b ≠ 1 := by rintro rfl; contradiction
  rw [flagOfByte, if_neg hzero, if_neg hone]

theorem flagOfByte_eq_some {b : Byte} (h : b.toNat ≤ 1) : flagOfByte b = some (decide (b = 1)) := by
  have hbit : b = 0 ∨ b = 1 := by bv_omega
  rcases hbit with rfl | rfl <;> rfl

/-! ## The states a link can be started from (section 6.1) -/

theorem LinkState.running_eq_false_iff (st : LinkState) : st.running = false ↔ st = .off ∨ st = .down := by
  cases st <;> decide

theorem LinkState.running_eq_true {st : LinkState} (hoff : st ≠ .off) (hdown : st ≠ .down) : st.running = true :=
  Bool.of_not_eq_false fun hstopped => ((LinkState.running_eq_false_iff st).1 hstopped).elim hoff hdown

/-! ## SET_LINK_TIMING (R107) -/

theorem exec_setLinkTiming {h : Host} {lb tb rb ab : Byte} {s t : State} {st : Status} {vs : List Byte} (hsetup : h = s.setupHost)
    (hr : cmdSetLinkTiming h [lb, tb, rb, ab] (s.judged .setLinkTiming h [lb, tb, rb, ab]) =
      { status := st, values := vs, state := t }) :
    exec (.setLinkTiming h [lb, tb, rb, ab]) s = .next (t.withResult h 0xA1 st vs) :=
  exec_row_of_setupHost (c := .setLinkTiming) (by simp) rfl hsetup hr

theorem cmdSetLinkTiming_badParam (h : Host) {lb tb rb ab : Byte} (s : State)
    (hbad : 1 < lb.toNat ∨ tb = 0 ∨ 7 < rb.toNat ∨ 1 < ab.toNat) :
    cmdSetLinkTiming h [lb, tb, rb, ab] s = refuse .badParam s := by
  have hsettings : tb = 0 ∨ 7 < rb.toNat → cmdSetLinkTiming h [lb, tb, rb, ab] s = refuse .badParam s := fun hout => by
    simp only [cmdSetLinkTiming, if_pos hout]
    split <;> rfl
  rcases hbad with hlb | htb | hrb | hab
  · simp only [cmdSetLinkTiming, linkOfByte_eq_none hlb]
  · exact hsettings (.inl htb)
  · exact hsettings (.inr hrb)
  · simp only [cmdSetLinkTiming, flagOfByte_eq_none hab]
    cases linkOfByte lb <;> rfl

theorem cmdSetLinkTiming_ok (h : Host) {lb tb rb ab : Byte} {l : Link} (s : State) (hlb : lb.toNat = l.val)
    (htb : tb ≠ 0) (hrb : rb.toNat ≤ 7) (hab : ab.toNat ≤ 1) :
    cmdSetLinkTiming h [lb, tb, rb, ab] s =
      { status := .ok, values := [],
        state := s.modLink l fun k => { k with timeout := tb, retryLimit := rb.toNat, autoRestart := decide (ab = 1) } } := by
  have hlegal : ¬ (tb = 0 ∨ 7 < rb.toNat) := fun hout => hout.elim htb (Nat.not_lt.2 hrb)
  simp only [cmdSetLinkTiming, linkOfByte_eq_some hlb, flagOfByte_eq_some hab, if_neg hlegal]

/-! ## LINK_START (R100) -/

theorem exec_linkStart {h : Host} {lb : Byte} {s t : State} {st : Status} {vs : List Byte} (hsetup : h = s.setupHost)
    (hr : cmdLinkStart h [lb] (s.judged .linkStart h [lb]) = { status := st, values := vs, state := t }) :
    exec (.linkStart h [lb]) s = .next (t.withResult h 0xA2 st vs) :=
  exec_row_of_setupHost (c := .linkStart) (by simp) rfl hsetup hr

theorem cmdLinkStart_badParam (h : Host) {lb : Byte} (s : State) (hlb : 1 < lb.toNat) :
    cmdLinkStart h [lb] s = refuse .badParam s := by
  simp only [cmdLinkStart, linkOfByte_eq_none hlb]

section
variable (h : Host) {lb : Byte} {l : Link} {s : State} (hlb : lb.toNat = l.val)
include hlb

theorem cmdLinkStart_busy (hrun : (s.linkState l).running = true) : cmdLinkStart h [lb] s = refuse .busy s := by
  simp only [cmdLinkStart, linkOfByte_eq_some hlb, hrun, if_true]

theorem cmdLinkStart_started (hstopped : (s.linkState l).running = false) :
    cmdLinkStart h [lb] s =
      { status := .ok, values := [(s.linkState l).code],
        state := (s.modLink l fun k => k.clearCounters.train s.timeBase).modArbiter l fun a => { a with nextClass := .write } } := by
  simp only [cmdLinkStart, linkOfByte_eq_some hlb, hstopped, Bool.false_eq_true, if_false]

end

/-- Settles O33: one case per outcome of the two owning rules, each by its equation above. -/
theorem linkSettingsAndStart : Obligations.LinkSettingsAndStart := by
  intro h lb tb rb ab s hsetup s0 u0
  refine ⟨fun hbad => exec_setLinkTiming hsetup (cmdSetLinkTiming_badParam h s0 hbad),
    fun hlb => exec_linkStart hsetup (cmdLinkStart_badParam h u0 hlb),
    fun l hlb => ⟨fun htb hrb hab => ?replaced, fun hoff hdown => ?busy, fun hstopped => ?started⟩⟩
  case replaced => exact exec_setLinkTiming hsetup (cmdSetLinkTiming_ok h s0 hlb htb hrb hab)
  case busy => exact exec_linkStart hsetup (cmdLinkStart_busy h hlb (LinkState.running_eq_true hoff hdown))
  case started => exact exec_linkStart hsetup (cmdLinkStart_started h hlb ((LinkState.running_eq_false_iff _).2 hstopped))

end Sys2Proof.Machine

/-!
# The link transactions: FETCH (section 7.7)

First the ticket counter and the one fetch a host may have open, then the owning rule by one equation per outcome, in the order of
its checks, and last the statement, assembled from these.
-/

namespace Sys2Proof.Machine

-- One proof at a time, as in the tests: a thread of its own for each would pass the memory limit of the check.
set_option Elab.async false

/-! ## The ticket counter and the open fetch (R127) -/

/-- R127: a byte counter that goes on to 1 after its greatest value. -/
theorem incSkipZero_byte_eq_ite (x : Byte) : incSkipZero x = if x = 255 then 1 else x + 1 := by
  have hwraps : x + 1 = 0 ↔ x = 255 := by bv_omega
  simp only [incSkipZero, hwraps]

theorem State.fetchInFlight_eq_true_iff (s : State) (h : Host) (l : Link) :
    s.fetchInFlight h l = true ↔ ∃ t, ∃ r ∈ s.request l t, ∃ ticket reported, r.kind = .fetch h ticket reported := by
  simp only [State.fetchInFlight, List.any_eq_true, List.mem_finRange, true_and, Option.any_eq_true, Option.mem_def]
  refine exists_congr fun t => exists_congr fun r => and_congr_right fun _ => ?_
  cases r.kind <;> simp

/-- R127: the host's fetch is in flight under a tag of some link, or pending on one. -/
theorem State.fetchOpen_eq_true_iff (s : State) (h : Host) :
    s.fetchOpen h = true ↔
      (∃ l t, ∃ r ∈ s.request l t, ∃ ticket reported, r.kind = .fetch h ticket reported)
        ∨ ∃ l, ∃ f ∈ (s.arbiters.get l).fetches, f.host = h := by
  simp only [State.fetchOpen, List.any_eq_true, List.mem_finRange, true_and, Bool.or_eq_true,
    State.fetchInFlight_eq_true_iff, decide_eq_true_eq, exists_or]

/-! ## FETCH (R127) -/

theorem exec_fetch {h : Host} {nb a1 a0 len : Byte} {s t : State} {st : Status} {vs : List Byte}
    (hr : cmdFetch h [nb, a1, a0, len] (s.judged .fetch h [nb, a1, a0, len]) = { status := st, values := vs, state := t }) :
    exec (.fetch h [nb, a1, a0, len]) s = .next (t.withResult h 0x8C st vs) :=
  exec_row_of_owner (c := .fetch) (by simp) rfl rfl hr

/-- R127, first check: the byte names no node, or the range is out of bounds. -/
theorem cmdFetch_badParam (h : Host) {nb a1 a0 len : Byte} (s : State)
    (hbad : nodeOfRef nb = none ∨ rangeOk (word16 a1 a0) len = false) :
    cmdFetch h [nb, a1, a0, len] s = refuse .badParam s := by
  simp only [cmdFetch]
  split
  · rfl
  · next n hn =>
    have hrange : rangeOk (word16 a1 a0) len = false := hbad.resolve_left (by simp [hn])
    simp only [hrange, Bool.not_false, if_true]

section
variable {h : Host} {nb a1 a0 len : Byte} {s : State} {n : Node}
variable (hn : nodeOfRef nb = some n) (hrange : rangeOk (word16 a1 a0) len = true)
include hn hrange

theorem cmdFetch_busy (hopen : s.fetchOpen h = true) : cmdFetch h [nb, a1, a0, len] s = refuse .busy s := by
  simp only [cmdFetch, hn, hrange, hopen, Bool.not_true, Bool.false_eq_true, if_false, if_true]

variable (hopen : s.fetchOpen h = false)
include hopen

theorem cmdFetch_linkNotUp (hlink : s.linkState (nodeLink n) ≠ .up) :
    cmdFetch h [nb, a1, a0, len] s = refuse .linkNotUp s := by
  simp only [cmdFetch, hn, hrange, hopen, Bool.not_true, Bool.false_eq_true, if_false, if_pos hlink]

variable (hlink : s.linkState (nodeLink n) = .up)
include hlink

theorem cmdFetch_nodeNotPresent (hpresent : s.presence n ≠ .present) :
    cmdFetch h [nb, a1, a0, len] s = refuse .nodeNotPresent s := by
  simp only [cmdFetch, hn, hrange, hopen, hlink, Bool.not_true, Bool.false_eq_true, ne_eq, not_true_eq_false, if_false,
    if_pos hpresent]

variable (hpresent : s.presence n = .present)
include hpresent

theorem cmdFetch_tooLong (hlen : s.maxLength n < len.toNat) : cmdFetch h [nb, a1, a0, len] s = refuse .badParam s := by
  simp only [cmdFetch, hn, hrange, hopen, hlink, hpresent, Bool.not_true, Bool.false_eq_true, ne_eq, not_true_eq_false,
    if_false, if_pos hlen]

theorem cmdFetch_accepted (hlen : len.toNat ≤ s.maxLength n) :
    cmdFetch h [nb, a1, a0, len] s =
      { status := .accepted, values := [incSkipZero (s.hosts.get h).ticketCounter],
        state := grants (acceptFetch h n (word16 a1 a0) len.toNat s) } := by
  simp only [cmdFetch, hn, hrange, hopen, hlink, hpresent, Bool.not_true, Bool.false_eq_true, ne_eq, not_true_eq_false,
    if_false, if_neg (Nat.not_lt.2 hlen)]

end

/-- Settles O26: one case per check of R127, each by its equation above, and the acceptance with the ticket written out. -/
theorem fetchChecksAndAcceptance : Obligations.FetchChecksAndAcceptance := by
  intro h nb a1 a0 len s s0 address refused open'
  have hopen : s0.fetchOpen h = true ↔ open' := s0.fetchOpen_eq_true_iff h
  have hclosed (hno : ¬ open') : s0.fetchOpen h = false := Bool.eq_false_iff.2 (mt hopen.1 hno)
  refine ⟨fun hbad => exec_fetch (cmdFetch_badParam h s0 (hbad.imp_right (rangeOk_eq_false_iff ..).2)),
    fun n hn hrange => ⟨?busy, ?linkNotUp, ?nodeNotPresent, ?tooLong, ?accepted⟩⟩
  case busy => exact fun hyes => exec_fetch (cmdFetch_busy hn hrange (hopen.2 hyes))
  case linkNotUp => exact fun hno hlink => exec_fetch (cmdFetch_linkNotUp hn hrange (hclosed hno) hlink)
  case nodeNotPresent =>
    exact fun hno hlink hpresent => exec_fetch (cmdFetch_nodeNotPresent hn hrange (hclosed hno) hlink hpresent)
  case tooLong =>
    exact fun hno hlink hpresent hlen => exec_fetch (cmdFetch_tooLong hn hrange (hclosed hno) hlink hpresent hlen)
  case accepted =>
    intro hno hlink hpresent hlen ticket item
    have hticket : incSkipZero (s0.hosts.get h).ticketCounter = ticket := incSkipZero_byte_eq_ite _
    rw [exec_fetch (cmdFetch_accepted hn hrange (hclosed hno) hlink hpresent hlen), hticket]
    unfold acceptFetch
    rw [hticket]

end Sys2Proof.Machine

/-!
# Reads through the windows of a host port, SET_ALIAS and CLEAR_ALIAS (Chapter 8)

First the bytes of a read and the report its end leaves, then SET_ALIAS and CLEAR_ALIAS, each owning rule by one equation per
outcome, and after each part its statement, assembled from these.
-/

namespace Sys2Proof.Machine

-- One proof at a time, as in the tests: a thread of its own for each would pass the memory limit of the check.
set_option Elab.async false

/-! ## The snapshot entry at a window position (R138, R144) -/

/-- The register `r` lies in the range of the snapshot entry. -/
abbrev SnapshotEntry.Covers (e : SnapshotEntry) (r : Nat) : Prop := e.first.toNat ≤ r ∧ r < e.first.toNat + e.data.length

theorem entryAt_eq_some_of_first {before after : List SnapshotEntry} {e : SnapshotEntry} {r : Nat} (he : e.Covers r)
    (hbefore : ∀ y ∈ before, ¬ y.Covers r) : entryAt (before ++ e :: after) r = some e :=
  List.find?_eq_some_iff_append.2
    ⟨decide_eq_true he, before, after, rfl, fun y hy => by
      simp only [inRange, decide_eq_false (hbefore y hy), Bool.not_false]⟩

theorem entryAt_eq_none {snap : List SnapshotEntry} {r : Nat} (hno : ∀ e ∈ snap, ¬ e.Covers r) : entryAt snap r = none :=
  List.find?_eq_none.2 fun e he => by simpa [inRange] using hno e he

section
variable {w : AliasSlot} {snap : List SnapshotEntry} {p : Nat}

theorem storedAt_of_entryAt {e : SnapshotEntry} (hp : p < w.size) (he : entryAt snap (w.base.toNat + p) = some e) :
    storedAt w snap p = (e.data[w.base.toNat + p - e.first.toNat]?).join := by
  simp only [storedAt, entryAtPosition, if_pos hp, he, Option.bind_some]

/-- R144: past the window end, and where no entry of the snapshot lies, no byte is stored. -/
theorem storedAt_eq_none (hout : w.size ≤ p ∨ ∀ e ∈ snap, ¬ e.Covers (w.base.toNat + p)) : storedAt w snap p = none := by
  rcases hout with hpast | hno
  · simp only [storedAt, entryAtPosition, if_neg (Nat.not_lt.2 hpast), Option.bind_none]
  · simp only [storedAt, entryAtPosition, entryAt_eq_none hno, ite_self, Option.bind_none]

end

/-! ## The bytes of a window read, and its end (R144, R145) -/

section
variable {h : Host} {s : State} {k : AliasIx} {w : AliasSlot} {start : Byte} {snap : List SnapshotEntry} {sent fill : Nat}
variable (ht : s.transaction h = .aliasRead k w start snap sent fill)
include ht

theorem aliasReadByte_stored {x : Byte} (hx : storedAt w snap (start.toNat + sent) = some x) :
    aliasReadByte h s = s.modHost h fun hs =>
      { hs with answer := .byte x, pointer := hs.pointer + 1,
                transaction := .aliasRead k w start snap (sent + 1) fill } := by
  simp only [aliasReadByte, ht, hx, Option.getD_some, Option.isSome_some, if_true]

theorem aliasReadByte_fill (hnone : storedAt w snap (start.toNat + sent) = none) :
    aliasReadByte h s = s.modHost h fun hs =>
      { hs with answer := .byte 0xFF, pointer := hs.pointer + 1,
                transaction := .aliasRead k w start snap (sent + 1) (fill + 1) } := by
  simp only [aliasReadByte, ht, hnone, Option.getD_none, Option.isSome_none, Bool.false_eq_true, if_false, fillByte]

theorem aliasReadEnd_eq :
    aliasReadEnd h s = s.modHost h fun hs =>
      { hs with report := servedReport k w start snap sent fill, transaction := .idle } := by
  simp only [aliasReadEnd, ht]

end

/-! ## The fields of a read report (R145) -/

theorem reportAddress_eq (w : AliasSlot) (start : Byte) :
    reportAddress w start = BitVec.ofNat 16 (w.base.toNat + start.toNat) := by
  unfold reportAddress
  bv_omega

theorem stopAt65535_toNat (n : Nat) : (stopAt65535 n).toNat = min n 65535 := by
  rw [stopAt65535, BitVec.toNat_ofNat]
  omega

/-- The two ranges that R145 compares share a register just when one of the `sent` bytes lay in both. -/
theorem touchedByRead_eq_true_iff (w : AliasSlot) (start sent : Nat) (e : SnapshotEntry) :
    touchedByRead w start sent e = true ↔
      ∃ j < sent, start + j < w.size ∧ e.first.toNat ≤ w.base.toNat + start + j
        ∧ w.base.toNat + start + j < e.first.toNat + e.data.length := by
  rw [touchedByRead, decide_eq_true_iff]
  constructor
  · intro hshared
    exact ⟨max (w.base.toNat + start) e.first.toNat - (w.base.toNat + start), by omega⟩
  · rintro ⟨j, hsent, hwindow, hfirst, hlast⟩
    omega

/-- The worst state is that of the first entry of the greatest rank. -/
theorem worstOf_eq_argmax (es : List SnapshotEntry) :
    worstOf es = (es.argmax fun e => e.state.rank).map SnapshotEntry.state := by
  unfold worstOf List.argmax
  refine List.foldl_hom (Option.map SnapshotEntry.state) (init := none) fun worst e => ?_
  cases worst with
  | none => rfl
  | some x => exact (apply_ite (Option.map SnapshotEntry.state) (x.state.rank < e.state.rank) (some e) (some x)).symm

/-- The greatest age is that of the first entry of it, and 0 of no entry. -/
theorem oldestOf_eq_argmax (es : List SnapshotEntry) :
    oldestOf es = ((es.argmax fun e => e.age.toNat).map SnapshotEntry.age).getD 0 := by
  unfold oldestOf List.argmax
  refine List.foldl_hom (fun o : Option SnapshotEntry => (o.map SnapshotEntry.age).getD 0) (init := none) fun oldest e => ?_
  cases oldest with
  | none =>
    change (if (0 : Word16) < e.age then e.age else 0) = e.age
    split
    · rfl
    · bv_omega
  | some x => exact (apply_ite (fun o => (Option.map SnapshotEntry.age o).getD 0) (x.age < e.age) (some e) (some x)).symm

section
variable {es : List SnapshotEntry} (hne : es ≠ [])
include hne

/-- A list that is not empty has its first element with the greatest key. -/
theorem exists_argmax (key : SnapshotEntry → Nat) :
    ∃ e ∈ es, es.argmax key = some e ∧ ∀ x ∈ es, key x ≤ key e := by
  obtain ⟨e, he⟩ := Option.ne_none_iff_exists'.1 (mt (List.argmax_eq_none (f := key)).1 hne)
  exact ⟨e, List.argmax_mem he, he, fun x hx => List.le_of_mem_argmax hx he⟩

theorem exists_worstOf : ∃ e ∈ es, worstOf es = some e.state ∧ ∀ x ∈ es, x.state.rank ≤ e.state.rank := by
  obtain ⟨e, he, hmax, hle⟩ := exists_argmax hne fun e => e.state.rank
  exact ⟨e, he, by rw [worstOf_eq_argmax, hmax, Option.map_some], hle⟩

theorem exists_oldestOf : ∃ e ∈ es, oldestOf es = e.age ∧ ∀ x ∈ es, x.age ≤ e.age := by
  obtain ⟨e, he, hmax, hle⟩ := exists_argmax hne fun e => e.age.toNat
  exact ⟨e, he, by rw [oldestOf_eq_argmax, hmax, Option.map_some, Option.getD_some], hle⟩

end

/-- Settles O58: the byte is the stored one of the first snapshot entry that covers the register, or fill; the report's touched
entries are those that one of the bytes lay in, and its worst state and greatest age are those of two of them. -/
theorem aliasReadServedAndReported : Obligations.AliasReadServedAndReported := by
  intro h s k w start snap sent fill ht p register lies sends
  have sends_stored {x : Byte} (hx : storedAt w snap p = some x) : sends x 0 :=
    congrArg Host.Outcome.next (aliasReadByte_stored ht hx)
  have sends_fill (hnone : storedAt w snap p = none) : sends 0xFF 1 :=
    congrArg Host.Outcome.next (aliasReadByte_fill ht hnone)
  have stored_of_first {before after : List SnapshotEntry} {e : SnapshotEntry} (hp : p < w.size)
      (hsnap : snap = before ++ e :: after) (he : lies e) (hbefore : ∀ y ∈ before, ¬ lies y) :
      storedAt w snap p = (e.data[register - e.first.toNat]?).join :=
    storedAt_of_entryAt hp (hsnap ▸ entryAt_eq_some_of_first he hbefore)
  refine ⟨fun before e after x hp hsnap he hbefore hx => sends_stored ?stored,
    fun before e after hp hsnap he hbefore hx => sends_fill ?unmarked, fun hout => sends_fill (storedAt_eq_none hout),
    _, congrArg Host.Outcome.next (aliasReadEnd_eq ht), ?frame, ?report⟩
  case stored => rw [stored_of_first hp hsnap he hbefore, hx, Option.join_some]
  case unmarked => rw [stored_of_first hp hsnap he hbefore, hx, Option.join_some]
  case frame => rw [State.modHost_hosts, get_upd_self]
  case report =>
    intro rep touched
    have hrep : rep = servedReport k w start snap sent fill := by simp [rep]
    have htouched : snap.filter (touchedByRead w start.toNat sent) = touched :=
      List.filter_congr fun e _ => by rw [Bool.eq_iff_iff, touchedByRead_eq_true_iff, decide_eq_true_iff]
    have hworst : rep.worst = worstOf touched := hrep ▸ congrArg worstOf htouched
    have holdest : rep.oldest = oldestOf touched := hrep ▸ congrArg oldestOf htouched
    rw [hworst, holdest, hrep]
    refine ⟨rfl, rfl, reportAddress_eq .., stopAt65535_toNat _, stopAt65535_toNat _, congrArg List.length htouched,
      fun hnone => ?none, fun e he => ?bounds, fun hne => ?attained⟩
    case none => rw [hnone]; exact ⟨rfl, rfl⟩
    case bounds =>
      obtain ⟨x, -, hstate, hrank⟩ := exists_worstOf (List.ne_nil_of_mem he)
      obtain ⟨y, -, hage, hle⟩ := exists_oldestOf (List.ne_nil_of_mem he)
      exact ⟨hage ▸ hle e he, x.state, hstate, hrank e he⟩
    case attained =>
      obtain ⟨x, hx, hstate, -⟩ := exists_worstOf hne
      obtain ⟨y, hy, hage, -⟩ := exists_oldestOf hne
      exact ⟨⟨y, hy, hage.symm⟩, x, hx, hstate⟩

/-! ## The slot and the access a byte names (R136, R170) -/

theorem aliasIxOfByte_eq_none {b : Byte} (h : 8 ≤ b.toNat) : aliasIxOfByte b = none := dif_neg (by omega)

theorem aliasIxOfByte_eq_some {b : Byte} {k : AliasIx} (h : b.toNat = k.val) : aliasIxOfByte b = some k := by
  simp [aliasIxOfByte, h]

/-- R170: the access codes are those of a flag, with READ_WRITE for 1. -/
theorem Access.ofByte_eq_map (b : Byte) :
    Access.ofByte b = (flagOfByte b).map fun writable => if writable then .readWrite else .readOnly := by
  unfold Access.ofByte flagOfByte
  split_ifs <;> rfl

theorem Access.ofByte_eq_none {b : Byte} (h : 1 < b.toNat) : Access.ofByte b = none := by
  rw [Access.ofByte_eq_map, flagOfByte_eq_none h, Option.map_none]

theorem Access.ofByte_eq_some {b : Byte} (h : b.toNat ≤ 1) :
    Access.ofByte b = some (if b = 1 then .readWrite else .readOnly) := by
  simp only [Access.ofByte_eq_map, flagOfByte_eq_some h, Option.map_some, decide_eq_true_eq]

/-- A byte that names a slot stands for its number. -/
theorem byteOf_eq_of_toNat {b : Byte} {n : Nat} (h : b.toNat = n) : byteOf n = b := by
  rw [byteOf, ← h, BitVec.ofNat_toNat, BitVec.setWidth_eq]

/-! ## SET_ALIAS (R136) -/

theorem exec_setAlias {h : Host} {kb ab nb b1 b0 z1 z0 xb tb : Byte} {s t : State} {st : Status} {vs : List Byte}
    (hr : cmdSetAlias h [kb, ab, nb, b1, b0, z1, z0, xb, tb] (s.judged .setAlias h [kb, ab, nb, b1, b0, z1, z0, xb, tb]) =
      { status := st, values := vs, state := t }) :
    exec (.setAlias h [kb, ab, nb, b1, b0, z1, z0, xb, tb]) s = .next (t.withResult h 0x88 st vs) :=
  exec_row_of_owner (c := .setAlias) (by simp) rfl rfl hr

theorem aliasParams_eq_none {kb ab nb b1 b0 z1 z0 xb tb : Byte}
    (hbad : 8 ≤ kb.toNat ∨ ab.toNat < 0x08 ∨ 0x77 < ab.toNat ∨ nodeOfRef nb = none ∨ (word16 z1 z0).toNat = 0
      ∨ 256 < (word16 z1 z0).toNat ∨ 65535 < (word16 b1 b0).toNat + (word16 z1 z0).toNat - 1 ∨ 1 < xb.toNat
      ∨ 1 < tb.toNat) :
    aliasParams [kb, ab, nb, b1, b0, z1, z0, xb, tb] = none := by
  simp only [aliasParams]
  split
  · next k n access strict hk hn hx ht =>
    have hkb : ¬ 8 ≤ kb.toNat := fun hout => by simp [aliasIxOfByte_eq_none hout] at hk
    have hxb : ¬ 1 < xb.toNat := fun hout => by simp [Access.ofByte_eq_none hout] at hx
    have htb : ¬ 1 < tb.toNat := fun hout => by simp [flagOfByte_eq_none hout] at ht
    simp only [hn, reduceCtorEq, false_or] at hbad
    exact if_neg (by omega)
  · rfl

/-- R136: every parameter is in range, and the slot's contents are read from them. -/
theorem aliasParams_eq_some {kb ab nb b1 b0 z1 z0 xb tb : Byte} {k : AliasIx} {n : Node} (hkb : kb.toNat = k.val)
    (hlow : 0x08 ≤ ab.toNat) (hhigh : ab.toNat ≤ 0x77) (hn : nodeOfRef nb = some n) (hpos : 1 ≤ (word16 z1 z0).toNat)
    (hsize : (word16 z1 z0).toNat ≤ 256) (hlast : (word16 b1 b0).toNat + (word16 z1 z0).toNat - 1 ≤ 65535)
    (hxb : xb.toNat ≤ 1) (htb : tb.toNat ≤ 1) :
    aliasParams [kb, ab, nb, b1, b0, z1, z0, xb, tb] =
      some (k, { address := ab.setWidth 7, node := n, base := word16 b1 b0, size := (word16 z1 z0).toNat,
                 access := if xb = 1 then .readWrite else .readOnly, strict := decide (tb = 1) }) := by
  simp only [aliasParams, aliasIxOfByte_eq_some hkb, hn, Access.ofByte_eq_some hxb, flagOfByte_eq_some htb]
  exact if_pos ⟨hlow, hhigh, hpos, hsize, hlast⟩

theorem State.aliasTaken_eq_true_iff (s : State) (h : Host) (k : AliasIx) (a : BitVec 7) :
    s.aliasTaken h k a = true ↔
      a = s.controlAddress ∨ ∃ j, j ≠ k ∧ ∃ w ∈ (s.hosts.get h).aliases.get j, w.address = a := by
  simp [State.aliasTaken, Option.any_eq_true]

section
variable (h : Host) {ps : List Byte} {s : State}

theorem cmdSetAlias_badParam (hps : aliasParams ps = none) : cmdSetAlias h ps s = refuse .badParam s := by
  simp only [cmdSetAlias, hps]

variable {k : AliasIx} {w : AliasSlot} (hps : aliasParams ps = some (k, w))
include hps

theorem cmdSetAlias_duplicate (htaken : s.aliasTaken h k w.address = true) :
    cmdSetAlias h ps s = refuse .duplicateAlias s := by
  simp only [cmdSetAlias, hps, htaken, if_true]

theorem cmdSetAlias_ok (hfree : s.aliasTaken h k w.address = false) :
    cmdSetAlias h ps s =
      { status := .ok, values := [byteOf k.val],
        state := s.modHost h fun hs => { hs with aliases := upd hs.aliases k fun _ => some w } } := by
  simp only [cmdSetAlias, hps, hfree, Bool.false_eq_true, if_false]

end

/-! ## CLEAR_ALIAS (R137) -/

theorem exec_clearAlias {h : Host} {kb : Byte} {s t : State} {st : Status} {vs : List Byte}
    (hr : cmdClearAlias h [kb] (s.judged .clearAlias h [kb]) = { status := st, values := vs, state := t }) :
    exec (.clearAlias h [kb]) s = .next (t.withResult h 0x89 st vs) :=
  exec_row_of_owner (c := .clearAlias) (by simp) rfl rfl hr

section
variable (h : Host) {kb : Byte} {s : State}

theorem cmdClearAlias_badParam (hkb : 8 ≤ kb.toNat) : cmdClearAlias h [kb] s = refuse .badParam s := by
  simp only [cmdClearAlias, aliasIxOfByte_eq_none hkb]

variable {k : AliasIx} (hkb : kb.toNat = k.val)
include hkb

theorem cmdClearAlias_notFound (hfree : (s.hosts.get h).aliases.get k = none) :
    cmdClearAlias h [kb] s = refuse .notFound s := by
  simp only [cmdClearAlias, aliasIxOfByte_eq_some hkb, hfree, Option.isNone_none, if_true]

theorem cmdClearAlias_ok (hused : (s.hosts.get h).aliases.get k ≠ none) :
    cmdClearAlias h [kb] s =
      { status := .ok, values := [byteOf k.val],
        state := s.modHost h fun hs => { hs with aliases := upd hs.aliases k fun _ => none } } := by
  simp only [cmdClearAlias, aliasIxOfByte_eq_some hkb, Option.isNone_iff_eq_none, if_neg hused]

end

/-- Settles O25: one case per outcome of the two owning rules, each by its equation above; the slot byte is the number of the
slot it names. -/
theorem aliasCommands : Obligations.AliasCommands := by
  intro h kb ab nb b1 b0 z1 z0 xb tb s ps s0 u0 base size
  refine ⟨fun hbad => exec_setAlias (cmdSetAlias_badParam h (aliasParams_eq_none hbad)),
    fun hkb => exec_clearAlias (cmdClearAlias_badParam h hkb),
    fun k hkb => ⟨fun hfree => exec_clearAlias (cmdClearAlias_notFound h hkb hfree), fun hused => ?freed,
      fun n hlow hhigh hn hpos hsize hlast hxb htb => ?set⟩⟩
  case freed => rw [exec_clearAlias (cmdClearAlias_ok h hkb hused), byteOf_eq_of_toNat hkb]
  case set =>
    intro slot taken
    have hps : aliasParams ps = some (k, slot) := aliasParams_eq_some hkb hlow hhigh hn hpos hsize hlast hxb htb
    have htaken : s0.aliasTaken h k slot.address = true ↔ taken := s0.aliasTaken_eq_true_iff h k slot.address
    refine ⟨fun hyes => exec_setAlias (cmdSetAlias_duplicate h hps (htaken.2 hyes)), fun hno => ?filled⟩
    rw [exec_setAlias (cmdSetAlias_ok h hps (Bool.eq_false_iff.2 (mt htaken.1 hno))), byteOf_eq_of_toNat hkb]

end Sys2Proof.Machine

/-!
# The taking of a command: its byte count, and who may give it (R151 to R153)

First the next result record, then the two checks made before any owning rule, and last the statement, assembled from these.
-/

namespace Sys2Proof.Machine

-- One proof at a time, as in the tests: a thread of its own for each would pass the memory limit of the check.
set_option Elab.async false

/-! ## The result record (R151) -/

/-- R151: the result number goes on to 1 after 255. -/
theorem State.withResult_eq (h : Host) (a : Byte) (st : Status) (values : List Byte) (s : State) :
    s.withResult h a st values = s.modHost h fun hs =>
      { hs with result := { number := if hs.result.number = 255 then 1 else hs.result.number + 1, address := a, status := st,
                            values := values } } := by
  simp only [State.withResult, incSkipZero_byte_eq_ite]

/-! ## The checks before the owning rule (R152, R153) -/

section
variable {c : Command} {h : Host} {ps : List Byte} {s : State}

theorem answer_of_wrong_count (hcount : ps.length ≠ c.byteCount) : c.answer h ps s = refuse .badParam s := by
  obtain ⟨-, hr⟩ | ⟨hlen, -⟩ | ⟨hlen, -⟩ := answer_cases c h ps s
  · exact hr
  · exact absurd hlen hcount
  · exact absurd hlen hcount

theorem answer_of_other_host (hlen : ps.length = c.byteCount) (hsetup : c.setupOnly = true) (hother : h ≠ s.setupHost) :
    c.answer h ps s = refuse .notPermitted s := by
  obtain ⟨hcount, -⟩ | ⟨-, -, -, hr⟩ | ⟨-, hsame, -⟩ := answer_cases c h ps s
  · exact absurd hlen hcount
  · exact hr
  · exact absurd (hsame hsetup) hother

/-- A command that is refused leaves its result record over the state in which it was judged, and nothing else. -/
theorem exec_row_of_refuse {st : Status} (hps : ps ≠ [])
    (hr : c.answer h ps (s.judged c h ps) = refuse st (s.judged c h ps)) :
    exec (c.row h ps) s = .next ((s.judged c h ps).withResult h c.address st []) := by
  simp only [exec_row, takeCommand_eq c h ps s hps, hr, refuse]

end

/-- Settles O17: the table is read off, and each refusal is the answer of its check; for the second one, the ending before the
command leaves the host that the straps select. -/
theorem byteCountAndPermissionChecked : Obligations.ByteCountAndPermissionChecked := by
  refine ⟨by decide, State.withResult_eq, by decide, by decide, fun c h ps s hps =>
    ⟨fun hcount => exec_row_of_refuse hps (answer_of_wrong_count hcount), fun hlen hsetup hother => ?_⟩⟩
  have hjudged : h ≠ (s.judged c h ps).setupHost := by rwa [judged_read ignoresRecords_setupHost]
  exact exec_row_of_refuse hps (answer_of_other_host hlen hsetup hjudged)

end Sys2Proof.Machine

/-!
# Watches and notice settings (R163 to R166)

First SET_NOTIFY, then the rules about one host's holder record put into its entry and about the zone of a fresh watch, and last
SET_WATCH and CLEAR_WATCH. Each owning rule stands by one equation per outcome, in the order of its checks, and each statement is
assembled from these.
-/

namespace Sys2Proof.Machine

-- One proof at a time, as in the tests: a thread of its own for each would pass the memory limit of the check.
set_option Elab.async false

/-! ## SET_NOTIFY (R163) -/

theorem exec_setNotify {h : Host} {en m1 m0 : Byte} {s t : State} {st : Status} {vs : List Byte}
    (hr : cmdSetNotify h [en, m1, m0] (s.judged .setNotify h [en, m1, m0]) = { status := st, values := vs, state := t }) :
    exec (.setNotify h [en, m1, m0]) s = .next (t.withResult h 0x86 st vs) :=
  exec_row_of_owner (c := .setNotify) (by simp) rfl rfl hr

theorem cmdSetNotify_badParam (h : Host) {en m1 m0 : Byte} (s : State)
    (hbad : 1 < en.toNat ∨ 0x07FF < (word16 m1 m0).toNat) : cmdSetNotify h [en, m1, m0] s = refuse .badParam s := by
  rcases hbad with hen | hmask
  · simp only [cmdSetNotify, flagOfByte_eq_none hen]
  · have hover : 0x07FF#16 < word16 m1 m0 := hmask
    simp only [cmdSetNotify, if_pos hover]
    cases flagOfByte en <;> rfl

theorem cmdSetNotify_ok (h : Host) {en m1 m0 : Byte} (s : State) (hen : en.toNat ≤ 1)
    (hmask : (word16 m1 m0).toNat ≤ 0x07FF) :
    cmdSetNotify h [en, m1, m0] s =
      { status := .ok, values := byteOfBool (s.hosts.get h).notifyEnable :: bytes16 (s.hosts.get h).mask,
        state := s.modHost h fun hs => { hs with notifyEnable := decide (en = 1), mask := word16 m1 m0 } } := by
  have hlegal : ¬ 0x07FF#16 < word16 m1 m0 := Nat.not_lt.2 hmask
  simp only [cmdSetNotify, flagOfByte_eq_some hen, if_neg hlegal]

theorem reset_hosts_get (h : Host) : State.reset.hosts.get h = HostState.reset := by
  revert h; decide

/-- Settles O24: one case per outcome of the owning rule, each by its equation above, and the settings of a host after reset. -/
theorem setNotifyReplacesSettings : Obligations.SetNotifyReplacesSettings := by
  intro h en m1 m0 s s0 old
  refine ⟨fun hbad => exec_setNotify (cmdSetNotify_badParam h s0 hbad), fun hen hmask => ?replaced, ?reset⟩
  case replaced =>
    rw [exec_setNotify (cmdSetNotify_ok h s0 hen hmask), bytes16_eq]
    rfl
  case reset =>
    rw [reset_hosts_get]
    exact ⟨rfl, rfl⟩

/-! ## One host's holder record put into its entry -/

/-- Host `h`'s holder record on the entry in slot `i` is `r`. -/
def State.putHolder (i : SlotIx) (h : Host) (r : Holder) (s : State) : State :=
  s.modEntry i (Entry.modHolder h fun _ => some r)

@[simp] theorem Entry.modHolder_holders_self (h : Host) (f : Option Holder → Option Holder) (e : Entry) :
    (e.modHolder h f).holders.get h = f (e.holders.get h) := by
  simp [Entry.modHolder]

theorem Entry.modHolder_modHolder (h : Host) (f g : Option Holder → Option Holder) (e : Entry) :
    (e.modHolder h f).modHolder h g = e.modHolder h fun r => g (f r) := by
  simp only [Entry.modHolder, upd_upd]

section
variable {i : SlotIx} {h : Host} {e : Entry} {r : Holder} {s : State}

theorem State.putHolder_entry (he : s.entry i = some e) (r : Holder) :
    (s.putHolder i h r).entry i = some (e.modHolder h fun _ => some r) := by
  simp [State.putHolder, he]

theorem State.putHolder_putHolder (r r' : Holder) : (s.putHolder i h r).putHolder i h r' = s.putHolder i h r' := by
  simp only [State.putHolder, State.modEntry, State.modSlot_modSlot, Option.map_map, Function.comp_def, Entry.modHolder_modHolder]

theorem State.watchOf_putHolder (he : s.entry i = some e) (r : Holder) : (s.putHolder i h r).watchOf h i = r.watch := by
  simp [State.watchOf, State.putHolder_entry he]

theorem Entry.heldBy_of_eq_some (e : Entry) (hr : e.holders.get h = some r) : e.heldBy h = true := by
  simp [Entry.heldBy, hr]

/-- A change of the host's own record puts there what it makes of the present one. -/
theorem State.modEntry_modHolder_map (he : s.entry i = some e) (hr : e.holders.get h = some r) (f : Holder → Holder) :
    s.modEntry i (Entry.modHolder h (Option.map f)) = s.putHolder i h (f r) :=
  State.modEntry_modHolder_congr he (by simp [hr])

end

/-! ## The zone of a number, and a fresh watch (R165) -/

section
variable {w : Watch} {x : Nat}

theorem Watch.zoneOf_below (hx : x < w.low.toNat) : w.zoneOf x = .below := if_pos hx

theorem Watch.zoneOf_inside (hlow : w.low.toNat ≤ x) (hhigh : x ≤ w.high.toNat) : w.zoneOf x = .inside := by
  rw [Watch.zoneOf, if_neg (Nat.not_lt.2 hlow), if_neg (Nat.not_lt.2 hhigh)]

theorem Watch.zoneOf_above (hlow : w.low.toNat ≤ x) (hhigh : w.high.toNat < x) : w.zoneOf x = .above := by
  rw [Watch.zoneOf, if_neg (Nat.not_lt.2 hlow), if_pos hhigh]

end

section
variable {i : SlotIx} {h : Host} {s : State} {e : Entry} {r : Holder} {w : Watch}
variable (he : s.entry i = some e) (hr : e.holders.get h = some r) (hw : r.watch = some w)
include he hr hw

theorem evaluateWatch_noData (hdata : e.hasData = false) : evaluateWatch i h s = s := by
  simp only [evaluateWatch, he, hr, hw, hdata, Bool.not_false, Bool.true_or, if_true]

/-- R165: the number has left the watch's zone; only the step from UNKNOWN to INSIDE is not told. -/
theorem evaluateWatch_moved (hdata : e.hasData = true) {z : Zone} (hz : w.zoneOf (numberOf (e.data.filterMap id)) = z)
    (hmoved : z ≠ w.zone) :
    evaluateWatch i h s =
      if w.zone = .unknown ∧ z = .inside then s.putHolder i h { r with watch := some { w with zone := z } }
      else notify h (eventOf .watch (byteOf i.val) w.zone.code (z.code.setWidth 16))
        (s.putHolder i h { r with watch := some { w with zone := z } }) := by
  simp only [evaluateWatch, he, hr, hw, hdata, hz, hmoved, Bool.not_true, decide_false, Bool.or_self, Bool.false_eq_true,
    if_false]
  rfl

end

/-! ## SET_WATCH (R164) -/

/-- R164: the holder record with a watch of these limits in zone `z`. -/
abbrev Holder.watching (low high : Word32) (z : Zone) (r : Holder) : Holder :=
  { r with watch := some { low := low, high := high, zone := z } }

/-- R165: the holder record whose fresh watch was evaluated to `z`: a WATCH event tells of every zone but INSIDE. -/
def State.putFreshWatch (i : SlotIx) (h : Host) (z : Zone) (r : Holder) (s : State) : State :=
  if z = .inside then s.putHolder i h r
  else notify h (eventOf .watch (byteOf i.val) 0 (z.code.setWidth 16)) (s.putHolder i h r)

section
variable {i : SlotIx} {h : Host} {s : State}

theorem State.putFreshWatch_inside (r : Holder) : s.putFreshWatch i h .inside r = s.putHolder i h r := if_pos rfl

theorem State.putFreshWatch_told {z : Zone} (hz : z ≠ .inside) (r : Holder) :
    s.putFreshWatch i h z r =
      notify h (eventOf .watch (byteOf i.val) 0 (z.code.setWidth 16)) (s.putHolder i h r) := if_neg hz

variable {e : Entry} (he : s.entry i = some e)
include he

theorem State.watchOf_putFreshWatch (z : Zone) (r : Holder) : (s.putFreshWatch i h z r).watchOf h i = r.watch := by
  have hput := State.watchOf_putHolder (h := h) he r
  unfold State.putFreshWatch
  split
  · exact hput
  · exact hput

theorem evaluateWatch_fresh (r : Holder) (hdata : e.hasData = true) {low high : Word32} {z : Zone} (hknown : z ≠ .unknown)
    (hz : (Watch.mk low high .unknown).zoneOf (numberOf (e.data.filterMap id)) = z) :
    evaluateWatch i h (s.putHolder i h (r.watching low high .unknown)) = s.putFreshWatch i h z (r.watching low high z) := by
  rw [evaluateWatch_moved (State.putHolder_entry he _) (Entry.modHolder_holders_self ..) rfl hdata hz hknown]
  simp only [State.putHolder_putHolder, State.putFreshWatch, true_and]
  rfl

end

theorem exec_setWatch {h : Host} {ib l3 l2 l1 l0 h3 h2 h1 h0 : Byte} {s t : State} {st : Status} {vs : List Byte}
    (hr : cmdSetWatch h [ib, l3, l2, l1, l0, h3, h2, h1, h0] (s.judged .setWatch h [ib, l3, l2, l1, l0, h3, h2, h1, h0]) =
      { status := st, values := vs, state := t }) :
    exec (.setWatch h [ib, l3, l2, l1, l0, h3, h2, h1, h0]) s = .next (t.withResult h 0x84 st vs) :=
  exec_row_of_owner (c := .setWatch) (by simp) rfl rfl hr

section
variable {h : Host} {ib l3 l2 l1 l0 h3 h2 h1 h0 : Byte} {s : State}

theorem cmdSetWatch_badParam (hbad : 48 ≤ ib.toNat ∨ word32 h3 h2 h1 h0 < word32 l3 l2 l1 l0) :
    cmdSetWatch h [ib, l3, l2, l1, l0, h3, h2, h1, h0] s = refuse .badParam s := by
  rcases hbad with hib | hband
  · simp only [cmdSetWatch, slotOfByte_eq_none hib]
  · simp only [cmdSetWatch, if_pos hband]
    cases slotOfByte ib <;> rfl

variable {i : SlotIx} (hib : ib.toNat = i.val) (hband : word32 l3 l2 l1 l0 ≤ word32 h3 h2 h1 h0)
include hib hband

theorem cmdSetWatch_notFound (he : s.entry i = none) :
    cmdSetWatch h [ib, l3, l2, l1, l0, h3, h2, h1, h0] s = refuse .notFound s := by
  simp only [cmdSetWatch, slotOfByte_eq_some hib, BitVec.not_lt.2 hband, if_false, he]

variable {e : Entry} (he : s.entry i = some e)
include he

theorem cmdSetWatch_notHolder (hr : e.holders.get h = none) :
    cmdSetWatch h [ib, l3, l2, l1, l0, h3, h2, h1, h0] s = refuse .notHolder s := by
  simp only [cmdSetWatch, slotOfByte_eq_some hib, BitVec.not_lt.2 hband, if_false, he, (e.heldBy_eq_false_iff h).2 hr,
    Bool.not_false, if_true]

variable {r : Holder} (hr : e.holders.get h = some r)
include hr

theorem cmdSetWatch_tooLong (hlen : 4 < e.length) :
    cmdSetWatch h [ib, l3, l2, l1, l0, h3, h2, h1, h0] s = refuse .badParam s := by
  simp only [cmdSetWatch, slotOfByte_eq_some hib, BitVec.not_lt.2 hband, he, e.heldBy_of_eq_some hr, Bool.not_true,
    Bool.false_eq_true, hlen, if_false, if_true]

variable (hlen : e.length ≤ 4)
include hlen

/-- R164: an accepted SET_WATCH is the evaluation of a fresh watch; whatever state this leaves, the watch's zone in it is the
answer. -/
theorem cmdSetWatch_accepted {t : State} {w : Watch}
    (ht : evaluateWatch i h (s.putHolder i h (r.watching (word32 l3 l2 l1 l0) (word32 h3 h2 h1 h0) .unknown)) = t)
    (hw : t.watchOf h i = some w) :
    cmdSetWatch h [ib, l3, l2, l1, l0, h3, h2, h1, h0] s = { status := .ok, values := [w.zone.code], state := t } := by
  simp only [cmdSetWatch, slotOfByte_eq_some hib, BitVec.not_lt.2 hband, he, e.heldBy_of_eq_some hr, Bool.not_true,
    Bool.false_eq_true, Nat.not_lt.2 hlen, if_false, State.modEntry_modHolder_map he hr, ht, hw, Option.map_some,
    Option.getD_some]

theorem cmdSetWatch_noData (hdata : e.hasData = false) :
    cmdSetWatch h [ib, l3, l2, l1, l0, h3, h2, h1, h0] s =
      { status := .ok, values := [0],
        state := s.putHolder i h (r.watching (word32 l3 l2 l1 l0) (word32 h3 h2 h1 h0) .unknown) } :=
  cmdSetWatch_accepted hib hband he hr hlen
    (evaluateWatch_noData (State.putHolder_entry he _) (Entry.modHolder_holders_self ..) rfl hdata)
    (State.watchOf_putHolder he _)

/-- R164, R165: with data, the zone of the number is the answer. -/
theorem cmdSetWatch_data (hdata : e.hasData = true) {z : Zone} (hknown : z ≠ .unknown)
    (hz : (Watch.mk (word32 l3 l2 l1 l0) (word32 h3 h2 h1 h0) .unknown).zoneOf (numberOf (e.data.filterMap id)) = z) :
    cmdSetWatch h [ib, l3, l2, l1, l0, h3, h2, h1, h0] s =
      { status := .ok, values := [z.code],
        state := s.putFreshWatch i h z (r.watching (word32 l3 l2 l1 l0) (word32 h3 h2 h1 h0) z) } :=
  cmdSetWatch_accepted hib hband he hr hlen (evaluateWatch_fresh he r hdata hknown hz) (State.watchOf_putFreshWatch he z _)

end

/-! ## CLEAR_WATCH (R166) -/

theorem exec_clearWatch {h : Host} {ib : Byte} {s t : State} {st : Status} {vs : List Byte}
    (hr : cmdClearWatch h [ib] (s.judged .clearWatch h [ib]) = { status := st, values := vs, state := t }) :
    exec (.clearWatch h [ib]) s = .next (t.withResult h 0x85 st vs) :=
  exec_row_of_owner (c := .clearWatch) (by simp) rfl rfl hr

section
variable {h : Host} {ib : Byte} {s : State}

theorem cmdClearWatch_badParam (hib : 48 ≤ ib.toNat) : cmdClearWatch h [ib] s = refuse .badParam s := by
  simp only [cmdClearWatch, slotOfByte_eq_none hib]

variable {i : SlotIx} (hib : ib.toNat = i.val)
include hib

theorem cmdClearWatch_notFound (he : s.entry i = none) : cmdClearWatch h [ib] s = refuse .notFound s := by
  simp only [cmdClearWatch, slotOfByte_eq_some hib, he]

variable {e : Entry} (he : s.entry i = some e)
include he

theorem cmdClearWatch_notHolder (hr : e.holders.get h = none) : cmdClearWatch h [ib] s = refuse .notHolder s := by
  simp only [cmdClearWatch, slotOfByte_eq_some hib, he, (e.heldBy_eq_false_iff h).2 hr, Bool.not_false, if_true]

theorem cmdClearWatch_ok {r : Holder} (hr : e.holders.get h = some r) :
    cmdClearWatch h [ib] s =
      { status := .ok, values := [byteOfBool r.watch.isSome], state := s.putHolder i h { r with watch := none } } := by
  have hwatch : s.watchOf h i = r.watch := by simp [State.watchOf, he, hr]
  simp only [cmdClearWatch, slotOfByte_eq_some hib, he, e.heldBy_of_eq_some hr, hwatch,
    State.modEntry_modHolder_map he hr, Bool.not_true, Bool.false_eq_true, if_false]

end

/-- Settles O23: one case per outcome of the two owning rules, each by its equation above; with data, one case per zone. -/
theorem watchCommands : Obligations.WatchCommands := by
  intro h ib l3 l2 l1 l0 h3 h2 h1 h0 s ps s0 u0 low high
  refine ⟨fun hbad => exec_setWatch (cmdSetWatch_badParam hbad), fun hib => exec_clearWatch (cmdClearWatch_badParam hib),
    fun i hib => ⟨fun he => exec_clearWatch (cmdClearWatch_notFound hib he), fun e he =>
      ⟨fun hr => exec_clearWatch (cmdClearWatch_notHolder hib he hr),
        fun r hr => exec_clearWatch (cmdClearWatch_ok hib he hr)⟩,
      fun hband => ⟨fun he => exec_setWatch (cmdSetWatch_notFound hib hband he), fun e he =>
        ⟨fun hr => exec_setWatch (cmdSetWatch_notHolder hib hband he hr), fun r hr =>
          ⟨fun hlen => exec_setWatch (cmdSetWatch_tooLong hib hband he hr hlen), fun hlen => ?accepted⟩⟩⟩⟩⟩
  case accepted =>
    intro watched set
    refine ⟨fun hdata => exec_setWatch (cmdSetWatch_noData hib hband he hr hlen hdata), fun hdata => ?_⟩
    intro x told
    have answered {z : Zone} (hknown : z ≠ .unknown) (hz : (Watch.mk low high .unknown).zoneOf x = z) :=
      exec_setWatch (cmdSetWatch_data hib hband he hr hlen hdata hknown hz)
    refine ⟨fun hx => ?below, fun hlow hhigh => ?inside, fun hx => ?above⟩
    case below =>
      rw [answered Zone.noConfusion (Watch.zoneOf_below hx), State.putFreshWatch_told Zone.noConfusion]
      rfl
    case inside =>
      rw [answered Zone.noConfusion (Watch.zoneOf_inside hlow hhigh), State.putFreshWatch_inside]
      rfl
    case above =>
      have hlow : low.toNat ≤ x := Nat.le_of_lt (Nat.lt_of_le_of_lt hband hx)
      rw [answered Zone.noConfusion (Watch.zoneOf_above hlow hx), State.putFreshWatch_told Zone.noConfusion]
      rfl

end Sys2Proof.Machine

/-!
# What a step is made of

Every command's effect is a chain of a few kinds of change (`Act`). An invariant of one part of the state is then kept by every step
as soon as each kind of change keeps it.
-/

namespace Sys2Proof.Machine

-- One proof at a time, as in the tests: a thread of its own for each would pass the memory limit of the check.
set_option Elab.async false

/-! ## The kinds of change -/

/-- What the rules that act on one entry keep of it, but for the poll phase: its range, a holder, and what a repoll mark needs. -/
structure Entry.Keeps (e e' : Entry) : Prop where
  node : e'.node = e.node
  first : e'.first = e.first
  length : e'.length = e.length
  held : 1 ≤ e.holderCount → 1 ≤ e'.holderCount
  repoll : e'.repoll = true →
    (e.repoll = true ∧ (e'.state = .suspended → e.state = .suspended)) ∨ (e.phase = .inFlight ∧ e'.state ≠ .suspended)

/-- The rules that keep also the phase. -/
structure Entry.KeepsPhase (e e' : Entry) : Prop extends e.Keeps e' where
  phase : e'.phase = e.phase

/-- What a rule has to mind when an entry of state `s` becomes `e'` (R25, R26, R41, R43): it is not past its stale limit for the
first time, unless the stale check is open; and only the Node Directory suspends it, or resumes it for a PRESENT node. -/
structure State.Allows (s : State) (e e' : Entry) : Prop where
  fresh : s.periodsOk → s.pastLimit e' = true → s.pastLimit e = true ∨ s.due.stale = true
  suspends : e'.state = .suspended → e.state = .suspended
  resumes : e.state = .suspended → e'.state ≠ .suspended → s.presence e.node = .present

/-- Both. -/
structure State.KeepsEntry (s : State) (e e' : Entry) : Prop extends e.KeepsPhase e', s.Allows e e'

/-- What happens to entries and hosts when an owner acts on an entry: a host is told, an entry changes, a poll is queued. -/
inductive Touch : State → State → Prop
  | told (h : Host) (b : EventBody) (s : State) : Touch s (notify h b s)
  | kept (i : SlotIx) (f : Entry → Entry) (s : State) (hf : ∀ e ∈ s.entry i, s.KeepsEntry e (f e)) : Touch s (s.modEntry i f)
  | queued (i : SlotIx) (s : State) : Touch s (queuePoll i s)

/-- A chain of such changes. -/
abbrev Touches : State → State → Prop := Relation.ReflTransGen Touch

/-- Two requests are for the same work: they differ at most in what sending and reporting need. -/
structure Request.SameWork (r r' : Request) : Prop where
  polled : r'.polled = r.polled
  kept : r.polled ≠ none → r'.kind = r.kind
  fetchOf : ∀ h, r'.fetchOf h = r.fetchOf h
  isWrite : r'.isWrite = r.isWrite
  node : r'.node = r.node
  address : r'.address = r.address
  length : r'.length = r.length

/-- Two arbiters have the same work in flight and the same pending fetches. -/
structure Arbiter.SameWork (a a' : Arbiter) : Prop where
  fetches : a'.fetches = a.fetches
  request : ∀ t, Option.Rel Request.SameWork (a.tags.get t).request (a'.tags.get t).request

/-- Only the Node Directory hands IDENTs over, and the transmitter gets nothing new to send while it has nothing (R82, R97). -/
structure Arbiter.Quieter (a a' : Arbiter) : Prop where
  idents : a'.idents.Sublist a.idents
  line : a.txOrder = [] → a.onLine = none → a'.txOrder = [] ∧ a'.onLine = none

/-- What only the Event Unit, the SET_ALIAS and DRAIN rules change of a host's record. -/
structure HostState.Keeps (hs hs' : HostState) : Prop where
  events : hs'.events = hs.events
  aliases : hs'.aliases = hs.aliases
  drain : hs'.drain = hs.drain

/-- What only the port's own bytes and the taking of a command change of a host's record. -/
structure HostState.KeepsPort (hs hs' : HostState) : Prop where
  pointer : hs'.pointer = hs.pointer
  transaction : hs'.transaction = hs.transaction
  result : hs'.result = hs.result

/-- A new entry of slot `i` fits into the Mirror Table (R11, R12). -/
structure State.Fits (s : State) (i : SlotIx) (e : Entry) : Prop where
  free : s.entry i = none
  pos : 1 ≤ e.length
  short : e.length ≤ 8
  inside : e.first.toNat + e.length - 1 ≤ 65535
  held : 1 ≤ e.holderCount
  apart : ∀ j, ∀ x ∈ s.entry j, x.node = e.node → rangesShare x.first.toNat x.length e.first.toNat e.length = false
  idle : e.phase = .idle
  unmarked : e.repoll = false
  unread : e.state ≠ .valid
  waits : e.state ≠ .suspended → s.presence e.node = .present

/-- What a chain of changes may do besides: act on the ports' own records, create entries rather than free slots, empty the poll
queue of a link that departs. -/
structure Scope where
  port : Bool
  creates : Bool
  departs : Bool

/-- A poll queue may be emptied too. -/
abbrev Scope.departing (port : Scope) : Scope := { port with departs := true }

/-- One change of the part. `port` says what it may do besides; `net` says that the links and the Node Directory may act on their
records. -/
inductive Act (port : Scope) (net : Bool) : State → State → Prop
  /-- An owner acts on an entry. -/
  | touch {s t : State} (h : Touch s t) : Act port net s t
  /-- The count, the periods, the open parts, the free choices, the queue of rows. -/
  | aside {s t : State} (hslots : t.slots = s.slots) (hpolls : t.pollQueues = s.pollQueues)
      (hwrites : t.writeQueues = s.writeQueues) (harbiters : t.arbiters = s.arbiters) (hhosts : t.hosts = s.hosts)
      (hclaims : t.claims = s.claims) (hnodes : t.nodes = s.nodes) (hlinks : t.links = s.links)
      (hstrap : t.addrSel = s.addrSel) (hfresh : s.freshOk → t.freshOk) : Act port net s t
  /-- R31, R43: a class takes another legal period, and the entries meet their new limits. -/
  | retimed (c : Fin 4) (p : Word16) (s : State) (hp : periodLegal p = true) :
      Act port net s (checkLimits { s with periods := upd s.periods c fun _ => p })
  | claimed (n : Node) (f : ClaimRecord → ClaimRecord) (s : State)
      (hok : ClaimRecordOk (s.claims.get n) → ClaimRecordOk (f (s.claims.get n))) : Act port net s (s.modClaim n f)
  | noded (hn : net = true) (n : Node) (f : NodeRecord → NodeRecord) (s : State)
      (hidentity : ∀ r : NodeRecord, (f r).identity = r.identity) : Act port net s (s.modNode n f)
  | identified (hn : net = true) (n : Node) (i : Identity) (c : BitVec 4) (s : State) : Act port net s (recordIdentity n i c s)
  | linked (hn : net = true) (l : Link) (f : LinkRecord → LinkRecord) (s : State)
      (hok : LinkRecordOk (s.links.get l) → LinkRecordOk (f (s.links.get l))) : Act port net s (s.modLink l f)
  | recorded (h : Host) (f : HostState → HostState) (s : State) (hkeep : ∀ hs : HostState, hs.Keeps (f hs))
      (hport : ∀ hs : HostState, hs.KeepsPort (f hs)) : Act port net s (s.modHost h f)
  | ported (hp : port.port = true) (h : Host) (f : HostState → HostState) (s : State)
      (hkeep : ∀ hs : HostState, hs.Keeps (f hs)) :
      Act port net s (s.modHost h f)
  | removed (hp : port.port = true) (h : Host) (r : EventRecord) (s : State) :
      Act port net s (s.modHost h (HostState.removeRead (low16 s.timeBase) r))
  | cleared (h : Host) (s : State) : Act port net s ((s.modHost h HostState.clearPort).modHost h HostState.clearEvents)
  | aliased (h : Host) (k : AliasIx) (w : AliasSlot) (ps : List Byte) (s : State) (hps : aliasParams ps = some (k, w))
      (hfree : s.aliasTaken h k w.address = false) :
      Act port net s (s.modHost h fun hs => { hs with aliases := upd hs.aliases k fun _ => some w })
  | unaliased (h : Host) (k : AliasIx) (s : State) :
      Act port net s (s.modHost h fun hs => { hs with aliases := upd hs.aliases k fun _ => none })
  /-- The Mirror Table: an entry comes, goes, is suspended; a poll queue is emptied. -/
  | created (hnew : port.creates = true) (i : SlotIx) (e : Entry) (s : State) (hfit : s.Fits i e) : Act port net s (s.putEntry i e)
  | freed (hnew : port.creates = false) (i : SlotIx) (s : State) (hused : (s.entry i).isSome = true) : Act port net s (freeSlot i s)
  | suspended (i : SlotIx) (s : State) : Act port net s (suspendEntry i s)
  | emptied (hdeparts : port.departs = true) (l : Link) (s : State) : Act port net s (emptyPollQueue l s)
  /-- The write queues. -/
  | reserved (h : Host) (n : Node) (s : State) (hown : (s.writeQueues.get (nodeLink n)).countOf h < 6)
      (hall : (s.writeQueues.get (nodeLink n)).count < 16) (hpresent : s.presence n = .present) : Act port net s (reserveWrite h n s)
  | rereserved (l : Link) (f : WriteRecord → WriteRecord) (s : State)
      (hf : ∀ r, (f r).origin = r.origin ∧ (f r).state = r.state ∧ (f r).covered = r.covered)
      (hlapse : ∀ r, (f r).node = r.node ∧ ((f r).lapse = none → r.lapse = none)) :
      Act port net s (s.modWrites l fun q => { q with reserved := q.reserved.map f })
  | dropped (h : Host) (l : Link) (s : State) : Act port net s (dropReservation h l s)
  | taken (h : Host) (l : Link) (r : WriteRecord) (seq : Word16) (s : State) (hr : s.reservation h l = some r)
      (hlapse : r.lapse = none) : Act port net s ((dropReservation h l s).modWrites l fun q =>
        { q with order := q.order ++ [{ r with seq := some seq, state := .queued }] })
  | lapsed (h : Host) (l : Link) (r : WriteRecord) (why : Reason) (seq : Word16) (s : State)
      (hr : s.reservation h l = some r) (hlapse : r.lapse = some why) :
      Act port net s (finishWrite l { r with seq := some seq } why (dropReservation h l s))
  | finished (l : Link) (r : WriteRecord) (o : Reason) (s : State) (hr : r ∈ (s.writeQueues.get l).order)
      (hstate : r.state ≠ .outstanding) : Act port net s (finishWrite l r o s)
  | restated (l : Link) (p : WriteRecord → Prop) [DecidablePred p] (st : WriteState) (s : State)
      (hp : ∀ r, p r → r.state = .queued ∨ r.state = .held) (hst : st = .queued ∨ st = .held)
      (hpresence : ∀ r, p r → s.presence r.node = if st = .queued then .present else .identifying) :
      Act port net s (s.modWrites l fun q => { q with order := q.order.map fun r => if p r then { r with state := st } else r })
  | clearedWrites (h : Host) (s : State) : Act port net s (clearWrites h s)
  | drained (h : Host) (c : Word16) (s : State) (hno : (s.hosts.get h).drain = none) (hsome : s.drainCount h ≠ 0) :
      Act port net s ((markCovered h s).modHost h fun hs =>
        { hs with drain := some { counter := c, covered := s.drainCount h, failed := 0 } })
  /-- The arbiters. -/
  | granted (l : Link) (s : State) : Act port net s (grantOne l s)
  | lined (l : Link) (f : Arbiter → Arbiter) (s : State) (hf : (s.arbiters.get l).SameWork (f (s.arbiters.get l)))
      (hquiet : net = true ∨ (s.arbiters.get l).Quieter (f (s.arbiters.get l))) :
      Act port net s (s.modArbiter l f)
  | fetching (l : Link) (x : FetchItem) (s : State) (hno : s.fetchOpen x.host = false)
      (hpresent : nodeLink x.node = l ∧ s.presence x.node = .present) :
      Act port net s (s.modArbiter l fun a => { a with fetches := a.fetches ++ [x] })
  | unfetched (l : Link) (p : FetchItem → Bool) (s : State) :
      Act port net s (s.modArbiter l fun a => { a with fetches := a.fetches.filter p })
  /-- A request ends: its tag is freed, and its owner acts. -/
  | discarded (l : Link) (t : Tag) (r : Request) (s : State) (hr : s.request l t = some r)
      (hpoll : ∀ i g, r.polled = some (i, g) → pollApplies s i g r.node r.address r.length = false)
      (hwrite : r.isWrite = true → (s.writeQueues.get l).outstanding r.node = none) : Act port net s (withdraw l t s)
  | pollEnded (l : Link) (t : Tag) (r : Request) (i : SlotIx) (e : Entry) (f : Entry → Entry) (s : State)
      (hr : s.request l t = some r) (he : s.entry i = some e)
      (hpoll : r.polled = some (i, (s.slots.get i).generation) ∧ r.node = e.node ∧ r.address = e.first ∧ r.length = e.length)
      (hf : e.Keeps (f e)) (hidle : (f e).phase = .idle) (hmark : (f e).repoll = false) (hallow : s.Allows e (f e)) :
      Act port net s ((withdraw l t s).modEntry i f)
  | writeEnded (l : Link) (t : Tag) (r : Request) (w : WriteRecord) (o : Reason) (s : State) (hr : s.request l t = some r)
      (hwrite : r.isWrite = true) (hw : (s.writeQueues.get l).outstanding r.node = some w) :
      Act port net s (finishWrite l w o (withdraw l t s))

/-- A chain of changes. -/
abbrev Acts (port : Scope) (net : Bool) : State → State → Prop := Relation.ReflTransGen (Act port net)

/-- A change that is allowed stays so where more is. -/
theorem Act.mono {port port' : Scope} {net net' : Bool} {s t : State} (h : Act port net s t) (hport : port.port = true → port'.port = true)
    (hcreates : port'.creates = port.creates) (hdeparts : port.departs = true → port'.departs = true) (hnet : net = true → net' = true) :
    Act port' net' s t := by
  cases h with
  | touch h => exact .touch h
  | aside h1 h2 h3 h4 h5 h6 h7 h8 h9 h10 => exact .aside h1 h2 h3 h4 h5 h6 h7 h8 h9 h10
  | retimed c p _ hp => exact .retimed c p s hp
  | claimed n f _ hok => exact .claimed n f s hok
  | noded hn n f _ hidentity => exact .noded (hnet hn) n f s hidentity
  | identified hn n i c => exact .identified (hnet hn) n i c s
  | linked hn l f _ hok => exact .linked (hnet hn) l f s hok
  | recorded h f _ hkeep hrest => exact .recorded h f s hkeep hrest
  | ported hp h f _ hkeep => exact .ported (hport hp) h f s hkeep
  | removed hp h r => exact .removed (hport hp) h r s
  | cleared h => exact .cleared h s
  | aliased h k w ps _ hps hfree => exact .aliased h k w ps s hps hfree
  | unaliased h k => exact .unaliased h k s
  | created hnew i e _ hfit => exact .created (hcreates.trans hnew) i e s hfit
  | freed hnew i _ hused => exact .freed (hcreates.trans hnew) i s hused
  | suspended i => exact .suspended i s
  | emptied hd l => exact .emptied (hdeparts hd) l s
  | reserved h n _ hown hall hpresent => exact .reserved h n s hown hall hpresent
  | rereserved l f _ hf hlapse => exact .rereserved l f s hf hlapse
  | dropped h l => exact .dropped h l s
  | taken h l r seq _ hr hlapse => exact .taken h l r seq s hr hlapse
  | lapsed h l r why seq _ hr hlapse => exact .lapsed h l r why seq s hr hlapse
  | finished l r o _ hr hstate => exact .finished l r o s hr hstate
  | restated l p st _ hp hst hpresence => exact .restated l p st s hp hst hpresence
  | clearedWrites h => exact .clearedWrites h s
  | drained h c _ hno hsome => exact .drained h c s hno hsome
  | granted l => exact .granted l s
  | lined l f _ hf hquiet => exact .lined l f s hf (hquiet.imp_left hnet)
  | fetching l x _ hno hpresent => exact .fetching l x s hno hpresent
  | unfetched l p => exact .unfetched l p s
  | discarded l t r _ hr hpoll hwrite => exact .discarded l t r s hr hpoll hwrite
  | pollEnded l t r i e f _ hr he hpoll hf hidle hmark hallow => exact .pollEnded l t r i e f s hr he hpoll hf hidle hmark hallow
  | writeEnded l t r w o _ hr hwrite hw => exact .writeEnded l t r w o s hr hwrite hw

theorem Acts.departing {port : Scope} {net : Bool} {s t : State} (h : Acts port net s t) : Acts port.departing net s t :=
  Relation.ReflTransGen.mono (fun _ _ h => h.mono id rfl (fun _ => rfl) id) _ _ h

theorem Acts.of_net {port : Scope} {net : Bool} {s t : State} (h : Acts port false s t) : Acts port net s t :=
  Relation.ReflTransGen.mono (fun _ _ h => h.mono id rfl id nofun) _ _ h

/-! ## Chains -/

theorem Acts.of_touches {port : Scope} {net : Bool} {s t : State} (h : Touches s t) : Acts port net s t :=
  Relation.ReflTransGen.mono (fun _ _ => Act.touch) _ _ h

section
variable {R : State → State → Prop}

/-- The last change of a chain is named first, as in the term that applies it. -/
theorem after {s u t : State} (hlast : Relation.ReflTransGen R u t) (hfirst : Relation.ReflTransGen R s u) :
    Relation.ReflTransGen R s t := hfirst.trans hlast

theorem chain_ite {c : Prop} [Decidable c] {s t u : State} (ht : Relation.ReflTransGen R s t) (hu : Relation.ReflTransGen R s u) :
    Relation.ReflTransGen R s (if c then t else u) := by
  split
  · exact ht
  · exact hu

/-- A chain for each item of a list, in its order, is a chain; `P` is what each change keeps. -/
theorem foldl_chain_of {β : Type} {P : State → Prop} (hP : ∀ s t, R s t → P s → P t) {f : State → β → State}
    (hf : ∀ s x, P s → Relation.ReflTransGen R s (f s x)) (xs : List β) (s : State) (hs : P s) :
    Relation.ReflTransGen R s (xs.foldl f s) := by
  have hkeeps {s t : State} (h : Relation.ReflTransGen R s t) (hs : P s) : P t := by
    induction h with
    | refl => exact hs
    | tail _ hlast ih => exact hP _ _ hlast ih
  induction xs generalizing s with
  | nil => exact .refl
  | cons x xs ih => exact (hf s x hs).trans (ih _ (hkeeps (hf s x hs) hs))

theorem foldl_chain {β : Type} {f : State → β → State} (hf : ∀ s x, Relation.ReflTransGen R s (f s x)) (xs : List β) (s : State) :
    Relation.ReflTransGen R s (xs.foldl f s) :=
  foldl_chain_of (P := fun _ => True) (fun _ _ _ => id) (fun s x _ => hf s x) xs s trivial

variable {f : SlotIx → State → State}

theorem forSlots_chain (hf : ∀ i s, Relation.ReflTransGen R s (f i s)) (s : State) :
    Relation.ReflTransGen R s (forSlots f s) := foldl_chain (fun s i => hf i s) _ s

theorem forEntries_chain_of {P : State → Prop} (hP : ∀ s t, R s t → P s → P t) (p : Entry → Bool)
    (hf : ∀ i s, P s → (∀ e ∈ s.entry i, p e = true) → Relation.ReflTransGen R s (f i s)) (s : State) (hs : P s) :
    Relation.ReflTransGen R s (forEntries p f s) := by
  refine foldl_chain_of hP (fun s i hs => ?_) _ s hs
  dsimp only
  split
  · exact .refl
  · next e he =>
    split
    · next hp => exact hf i s hs (by simpa [he] using hp)
    · exact .refl

theorem forEntries_chain (p : Entry → Bool) (hf : ∀ i s, Relation.ReflTransGen R s (f i s)) (s : State) :
    Relation.ReflTransGen R s (forEntries p f s) :=
  forEntries_chain_of (P := fun _ => True) (fun _ _ _ => id) p (fun i s _ _ => hf i s) s trivial

theorem forHosts_chain {f : Host → State → State} (hf : ∀ h s, Relation.ReflTransGen R s (f h s)) (s : State) :
    Relation.ReflTransGen R s (forHosts f s) := foldl_chain (fun s h => hf h s) _ s

theorem forTags_chain {f : Tag → State → State} (hf : ∀ t s, Relation.ReflTransGen R s (f t s)) (s : State) :
    Relation.ReflTransGen R s (forTags f s) := foldl_chain (fun s t => hf t s) _ s

theorem forNodes_chain {f : Node → State → State} (hf : ∀ n s, Relation.ReflTransGen R s (f n s)) (s : State) :
    Relation.ReflTransGen R s (forNodes f s) := foldl_chain (fun s n => hf n s) _ s

end

/-! ## The Mirror Table's rules -/

theorem notify_touches (h : Host) (b : EventBody) (s : State) : Touches s (notify h b s) := .single (.told ..)

theorem queuePoll_touches (i : SlotIx) (s : State) : Touches s (queuePoll i s) := .single (.queued ..)

theorem broadcast_touches (b : EventBody) (s : State) : Touches s (broadcast b s) := forHosts_chain (fun _ _ => notify_touches ..) s

theorem entryEvent_touches (i : SlotIx) (k : EventKind) (why : Reason) (s : State) : Touches s (entryEvent i k why s) := by
  refine forHosts_chain (fun h s => ?_) s
  split
  · exact .refl
  · split
    · exact notify_touches ..
    · exact .refl

/-- A change of an entry's values alone. -/
theorem Entry.KeepsPhase.of_values {e e' : Entry} (hnode : e'.node = e.node) (hfirst : e'.first = e.first)
    (hlength : e'.length = e.length) (hholders : e'.holders = e.holders) (hphase : e'.phase = e.phase)
    (hrepoll : e'.repoll = true → e.repoll = true) (hstate : e'.state = .suspended → e.state = .suspended) : e.KeepsPhase e' where
  node := hnode
  first := hfirst
  length := hlength
  held := by simp [Entry.holderCount, Entry.heldBy, hholders]
  repoll h := .inl ⟨hrepoll h, hstate⟩
  phase := hphase

/-- R41: what an entry past its stale limit is. -/
theorem State.pastLimit_iff (s : State) (e : Entry) :
    s.pastLimit e = true ↔ e.state = .valid ∧ ∃ c, s.effective e = .timed c ∧ 3 * (s.periods.get c).toNat ≤ e.age.toNat := by
  simp only [State.pastLimit, State.staleLimit, Bool.and_eq_true, decide_eq_true_eq]
  cases s.effective e <;> simp

/-- R30, R41: with legal periods, an entry just refreshed is not past its limit. -/
theorem State.pastLimit_of_age_zero {s : State} {e : Entry} (hperiods : s.periodsOk) (hage : e.age = 0) :
    s.pastLimit e ≠ true := by
  rw [Ne, State.pastLimit_iff]
  rintro ⟨-, c, -, hlimit⟩
  have hperiod := hperiods c
  have hzero : s.periods.get c = 0 := BitVec.eq_of_toNat_eq (by simp [hage] at hlimit ⊢; omega)
  rw [hzero] at hperiod
  exact absurd hperiod (by decide)

/-- An entry with the same age, node and requested classes is past its limit just if the other is. -/
theorem State.pastLimit_congr {s : State} {e e' : Entry} (hnode : e'.node = e.node) (hrequests : e'.requests = e.requests)
    (hstate : e'.state = .valid → e.state = .valid) (hage : e'.age = e.age) (h : s.pastLimit e' = true) : s.pastLimit e = true := by
  rw [State.pastLimit_iff] at h ⊢
  obtain ⟨hvalid, c, hcls, hlimit⟩ := h
  exact ⟨hstate hvalid, c, by simpa only [State.effective, hnode, hrequests] using hcls, hage ▸ hlimit⟩

/-- A change of an entry's values that makes it VALID only as it is refreshed, and leaves suspension alone. -/
theorem State.Allows.of_values {s : State} {e e' : Entry} (hnode : e'.node = e.node) (hrequests : e'.requests = e.requests)
    (hsuspends : e'.state = .suspended ↔ e.state = .suspended)
    (hvalid : e'.state = .valid → e'.age = 0 ∨ (e'.age = e.age ∧ e.state = .valid)) : s.Allows e e' where
  fresh hperiods hpast := by
    rcases hvalid ((State.pastLimit_iff ..).1 hpast).1 with hage | ⟨hage, hwas⟩
    · exact absurd hpast (State.pastLimit_of_age_zero hperiods hage)
    · exact .inl (State.pastLimit_congr hnode hrequests (fun _ => hwas) hage hpast)
  suspends := hsuspends.1
  resumes hs hno := absurd (hsuspends.2 hs) hno

theorem State.KeepsEntry.of_values {s : State} {e e' : Entry} (hnode : e'.node = e.node) (hfirst : e'.first = e.first)
    (hlength : e'.length = e.length) (hholders : e'.holders = e.holders) (hphase : e'.phase = e.phase)
    (hrepoll : e'.repoll = true → e.repoll = true) (hsuspends : e'.state = .suspended ↔ e.state = .suspended)
    (hvalid : e'.state = .valid → e'.age = 0 ∨ (e'.age = e.age ∧ e.state = .valid)) : s.KeepsEntry e e' :=
  ⟨.of_values hnode hfirst hlength hholders hphase hrepoll hsuspends.1,
    .of_values hnode (by simp only [Entry.requests, hholders]) hsuspends hvalid⟩

theorem State.modEntry_modEntry (i : SlotIx) (s : State) (f g : Entry → Entry) :
    (s.modEntry i f).modEntry i g = s.modEntry i fun e => g (f e) := by
  simp only [State.modEntry, State.modSlot, upd_upd, Option.map_map]
  rfl

/-- R41 to R43: a rule changes an entry, which then meets its new limit. -/
theorem rejudged_touches {i : SlotIx} {f : Entry → Entry} {s : State} (hf : ∀ e ∈ s.entry i, e.KeepsPhase (f e))
    (hstate : ∀ e ∈ s.entry i, (f e).state = e.state) : Touches s (meetLimit i (s.modEntry i f)) := by
  rcases meetLimit_cases i (s.modEntry i f) with ⟨h, hno⟩ | ⟨x, hx, hpast, h⟩ <;> rw [h]
  · refine .single (.kept _ _ _ fun e he => ⟨hf e he, fun _ hpast => ?_, fun h => hstate e he ▸ h, fun h hno => absurd (hstate e he ▸ h) hno⟩)
    have hnot := hno (f e) (by simpa [he] using ⟨e, he, rfl⟩)
    exact absurd hpast (by rw [show s.pastLimit (f e) = false from hnot]; simp)
  · rw [State.modEntry_modEntry]
    refine after (entryEvent_touches ..) (.single (.kept _ _ _ fun e he => ?_))
    have hvalid : e.state = .valid := by
      obtain ⟨e', he', rfl⟩ : ∃ e', s.entry i = some e' ∧ f e' = x := by simpa using hx
      obtain rfl : e = e' := by simpa [he'] using he.symm
      exact hstate e he' ▸ ((State.pastLimit_iff ..).1 hpast).1
    obtain ⟨hkeeps, hphase⟩ := hf e he
    refine ⟨⟨⟨hkeeps.node, hkeeps.first, hkeeps.length, hkeeps.held, fun hr => ?_⟩, hphase⟩, ?_, by simp, by simp [hvalid]⟩
    · rcases hkeeps.repoll hr with ⟨hr, -⟩ | ⟨hflight, -⟩
      · exact .inl ⟨hr, by simp⟩
      · exact .inr ⟨hflight, by simp⟩
    · intro _ hno
      simp [State.pastLimit] at hno

theorem staled_touches (i : SlotIx) (s : State) (hvalid : ∀ e ∈ s.entry i, e.state = .valid) :
    Touches s (s.modEntry i fun e => { e with state := .stale }) :=
  .single (.kept _ _ _ fun e he => .of_values rfl rfl rfl rfl rfl id (by simp [hvalid e he]) (by simp))

theorem meetLimit_touches (i : SlotIx) (s : State) : Touches s (meetLimit i s) := by
  rcases meetLimit_cases i s with ⟨h, -⟩ | ⟨e, he, hpast, h⟩ <;> rw [h]
  have hvalid := ((State.pastLimit_iff ..).1 hpast).1
  exact (staled_touches i s (by simpa [he] using hvalid)).trans (entryEvent_touches ..)

theorem checkLimits_touches (s : State) : Touches s (checkLimits s) := forSlots_chain meetLimit_touches s

/-- A holder's record replaced by one of the same host keeps the entry's holders. -/
theorem Entry.modHolder_keepsPhase {h : Host} {f : Option Holder → Option Holder} {e : Entry}
    (hf : (e.holders.get h).isSome = true → (f (e.holders.get h)).isSome = true) : e.KeepsPhase (e.modHolder h f) where
  node := rfl
  first := rfl
  length := rfl
  held hcount := by
    refine hcount.trans ?_
    simp only [Entry.holderCount_eq_countP]
    refine List.countP_mono_left fun g _ hg => ?_
    by_cases hgh : g = h
    · subst hgh
      simpa [Entry.modHolder, Entry.heldBy] using hf (by simpa [Entry.heldBy] using hg)
    · simpa [Entry.modHolder, Entry.heldBy, hgh] using hg
  repoll hr := .inl ⟨hr, id⟩
  phase := rfl

theorem Entry.modHolder_requests {h : Host} {f : Option Holder → Option Holder} {e : Entry}
    (hf : (f (e.holders.get h)).map Holder.cls = (e.holders.get h).map Holder.cls) : (e.modHolder h f).requests = e.requests := by
  refine List.filterMap_congr fun g _ => ?_
  simp only [Entry.modHolder, get_upd]
  split
  · next hg => exact hg ▸ hf
  · rfl

/-- A holder's watch changes. -/
theorem modHolder_touches {i : SlotIx} {h : Host} {f : Option Holder → Option Holder} {s : State}
    (hf : ∀ e ∈ s.entry i, (f (e.holders.get h)).map Holder.cls = (e.holders.get h).map Holder.cls) :
    Touches s (s.modEntry i (Entry.modHolder h f)) := by
  refine .single (.kept _ _ _ fun e he => ⟨Entry.modHolder_keepsPhase fun hsome => ?_,
    .of_values rfl (Entry.modHolder_requests (hf e he)) .rfl fun hv => .inr ⟨rfl, hv⟩⟩)
  have hmap := congrArg Option.isSome (hf e he)
  simpa [hsome] using hmap

theorem evaluateWatch_touches (i : SlotIx) (h : Host) (s : State) : Touches s (evaluateWatch i h s) := by
  unfold evaluateWatch
  split
  · exact .refl
  · next e he =>
    split
    · exact .refl
    · next r hr =>
      split
      · exact .refl
      · dsimp only
        split
        · exact .refl
        · have hzone (w : Watch) : Touches s (s.modEntry i (Entry.modHolder h fun _ => some { r with watch := some w })) :=
            modHolder_touches (by simp [he, hr])
          split
          · exact hzone _
          · exact (hzone _).trans (notify_touches ..)

theorem evaluateWatches_touches (i : SlotIx) (s : State) : Touches s (evaluateWatches i s) :=
  forHosts_chain (fun h s => evaluateWatch_touches i h s) s

theorem overlay_length (new : List Byte) (addr : Nat) (old : List (Option Byte)) :
    ∀ at', (overlay new addr at' old).length = old.length := by
  induction old with
  | nil => intro; rfl
  | cons o old ih => intro at'; simp [overlay, ih]

theorem writeIntoEntry_touches (a : Nat) (bytes : List Byte) (i : SlotIx) (s : State) :
    Touches s (writeIntoEntry a bytes i s) := by
  unfold writeIntoEntry
  split
  · exact .refl
  · next e he =>
    dsimp only
    have hwritten (c : Bool) : Touches s (s.modEntry i fun e' =>
        { e' with data := overlay bytes a e'.first.toNat e'.data, epoch := e'.epoch + 1, age := if c then 0 else e'.age,
                  state := if c && e.pollable then .valid else e'.state }) := by
      refine .single (.kept _ _ _ fun x hx => ?_)
      obtain rfl : e = x := by simpa [he] using hx
      refine .of_values rfl rfl (overlay_length ..) rfl rfl id ?_ ?_
      · cases c <;> cases hpoll : e.pollable
        case true.true => simpa [Entry.pollable] using (by simp_all [Entry.pollable] : e.state ≠ .suspended)
        all_goals simp
      · cases c
        · exact fun hv => .inr ⟨rfl, by simpa using hv⟩
        · exact fun _ => .inl rfl
    have htouch := hwritten (decide (a ≤ e.first.toNat ∧ e.first.toNat + e.length ≤ a + bytes.length))
    simp only [decide_eq_true_eq] at htouch ⊢
    exact after (evaluateWatches_touches ..) (chain_ite (htouch.trans (entryEvent_touches ..)) htouch)

/-- R23, R24: a VALID entry becomes STALE, others keep their state. -/
theorem worn_touches (i : SlotIx) (s : State) (epoch : Entry → Word16) : Touches s (s.modEntry i fun e =>
    { e with epoch := epoch e, state := if e.state = .valid then .stale else e.state }) := by
  refine .single (.kept _ _ _ fun e _ => .of_values rfl rfl rfl rfl rfl id ?_ ?_) <;> dsimp only <;> split <;> simp_all

theorem failWriteOnEntry_touches (i : SlotIx) (s : State) : Touches s (failWriteOnEntry i s) :=
  (worn_touches i s fun e => e.epoch + 1).trans (queuePoll_touches ..)

theorem mirrorEnding_touches (r : WriteRecord) (o : Reason) (s : State) : Touches s (mirrorEnding r o s) := by
  unfold mirrorEnding
  split
  · exact forEntries_chain _ (fun i s => writeIntoEntry_touches _ _ i s) s
  · exact forEntries_chain _ failWriteOnEntry_touches s

theorem tellEnding_touches (r : WriteRecord) (o : Reason) (s : State) : Touches s (tellEnding r o s) := by
  unfold tellEnding
  split
  · exact (mirrorEnding_touches r o s).trans (notify_touches ..)
  · exact mirrorEnding_touches r o s

theorem markEntry_touches (i : SlotIx) (s : State) : Touches s (markEntry i s) := by
  unfold markEntry
  split
  · exact .refl
  · next e he =>
    split
    · exact .refl
    · next hne =>
      dsimp only
      have hstaled := worn_touches i s Entry.epoch
      split
      · exact hstaled.trans (queuePoll_touches ..)
      · exact hstaled
      · next hphase =>
        refine hstaled.tail (.kept _ _ _ fun x hx => ?_)
        have hx : x = { e with state := if e.state = .valid then .stale else e.state } := by
          simpa [he] using hx.symm
        have hstate : x.state ≠ .suspended := by
          rw [hx]
          dsimp only
          split
          · simp
          · exact hne
        exact ⟨{ node := rfl, first := rfl, length := rfl, held := id, phase := rfl
                 repoll := fun _ => .inr ⟨by rw [hx]; exact hphase, hstate⟩ },
          .of_values rfl rfl .rfl fun hv => .inr ⟨rfl, hv⟩⟩

/-- R26: an entry of a PRESENT node is resumed. -/
theorem resumeEntry_touches (i : SlotIx) (s : State) (hpresent : ∀ e ∈ s.entry i, s.presence e.node = .present) :
    Touches s (resumeEntry i s) := by
  have hresumed {f : Entry → Entry} (hf : ∀ e, e.KeepsPhase (f e)) (hstate : ∀ e, (f e).state ≠ .valid ∧ (f e).state ≠ .suspended) :
      Touches s (s.modEntry i f) :=
    .single (.kept _ _ _ fun e he => ⟨hf e, fun _ hpast => absurd ((State.pastLimit_iff ..).1 hpast).1 (hstate e).1,
      fun h => absurd h (hstate e).2, fun _ _ => hpresent e he⟩)
  unfold resumeEntry
  split
  · exact .refl
  · split
    · have hfailed : Touches s (s.modEntry i fun e => { e with state := .failed, fault := .tooLong }) :=
        hresumed (fun e => .of_values rfl rfl rfl rfl rfl id (by simp)) (by simp)
      exact hfailed.trans (entryEvent_touches ..)
    · have hback : Touches s (s.modEntry i fun e => { e with state := if e.hasData then .stale else .unfilled }) :=
        hresumed (fun e => .of_values rfl rfl rfl rfl rfl id (by dsimp only; split <;> simp)) fun e => by
          dsimp only
          split <;> simp
      exact hback.trans (queuePoll_touches ..)

/-- A rule on entries leaves the records outside of entries, poll queues and hosts. -/
theorem Touch.nodes_links {s t : State} (h : Touch s t) : t.nodes = s.nodes ∧ t.links = s.links := by
  cases h with
  | told | kept => exact ⟨rfl, rfl⟩
  | queued i =>
    exact Prod.mk.injEq .. |>.mp (queuePoll_read (g := fun s => (s.nodes, s.links)) (fun _ _ _ => rfl) (fun _ _ _ => rfl) ..)

theorem Touch.presence {s t : State} (h : Touch s t) (n : Node) : t.presence n = s.presence n := by
  simp only [State.presence, h.nodes_links.1]

theorem Touch.due {s t : State} (h : Touch s t) : t.due = s.due := by
  cases h with
  | told | kept => rfl
  | queued i => exact queuePoll_read (g := State.due) (fun _ _ _ => rfl) (fun _ _ _ => rfl) ..

theorem resumeNode_touches (n : Node) (s : State) (hpresent : s.presence n = .present) : Touches s (resumeNode n s) := by
  refine forEntries_chain_of (P := fun u => u.presence n = .present) (fun u t h hu => (h.presence n).trans hu) _
    (fun i u hu hp => resumeEntry_touches i u fun e he => ?_) s hpresent
  have hnode := hp e he
  simp only [Bool.and_eq_true, decide_eq_true_eq] at hnode
  exact hnode.1 ▸ hu

/-- R40, R41: entries age only as the stale check of a new millisecond event is open. -/
theorem ageEntries_touches (s : State) (hopen : s.due.stale = true) : Touches s (ageEntries s) := by
  refine foldl_chain_of (R := Touch) (P := fun u => u.due.stale = true) (fun u t h hu => h.due ▸ hu) (fun u i hu => ?_) _ s hopen
  exact .single (.kept _ _ _ fun _ _ => ⟨.of_values rfl rfl rfl rfl rfl id id, fun _ _ => .inr hu, id, fun h hno => absurd h hno⟩)

theorem tickClasses_touches (s : State) : Touches s (tickClasses s) := by
  have hskipped (i : SlotIx) (s : State) : Touches s (s.modEntry i fun e => { e with skipped := satInc e.skipped }) :=
    .single (.kept _ _ _ fun _ _ => .of_values rfl rfl rfl rfl rfl id .rfl fun hv => .inr ⟨rfl, hv⟩)
  refine forSlots_chain (fun i s => ?_) s
  unfold tickEntry
  repeat' split
  all_goals first
    | exact .refl
    | exact queuePoll_touches ..
    | exact hskipped i s

section
variable {port : Scope} {net : Bool}

/-- The holder who leaves is the last, and the slot is freed, or the entry stays and meets its new limit. -/
theorem removeHolder_acts (hnew : port.creates = false) (h : Host) (i : SlotIx) (s : State) : Acts port net s (removeHolder h i s) := by
  cases he : s.entry i with
  | none =>
    have : removeHolder h i s = s.modEntry i (Entry.modHolder h fun _ => none) := by simp [removeHolder, he]
    rw [this]
    exact .single (.touch (.kept _ _ _ (by simp [he])))
  | some e =>
    by_cases hlast : ∀ g, g ≠ h → e.holders.get g = none
    · have hfree : removeHolder h i s = freeSlot i s := by
        rw [removeHolder_last he hlast]
        simp only [freeSlot, he]
        rfl
      exact hfree ▸ .single (.freed hnew i s (by simp [he]))
    · have hothers : ∃ g, g ≠ h ∧ e.holders.get g ≠ none := by simpa using hlast
      rw [removeHolder_others he hothers]
      refine Acts.of_touches (rejudged_touches (fun x hx => ?_) fun _ _ => rfl)
      obtain rfl : e = x := by simpa [he] using hx
      exact { node := rfl, first := rfl, length := rfl, phase := rfl, repoll := fun hr => .inl ⟨hr, id⟩
              held := fun _ => Nat.pos_of_ne_zero fun hz => hlast ((e.holderCount_leave_eq_zero_iff h).1 hz) }

end

/-! ## What the changes leave alone -/

/-- The records that stand outside of queues, entries, arbiters and hosts. -/
abbrev outerRecords (s : State) : Vector ClaimRecord 8 × Vector NodeRecord 8 × Vector LinkRecord 2 := (s.claims, s.nodes, s.links)

theorem Touch.outerRecords {s t : State} (h : Touch s t) : outerRecords t = outerRecords s := by
  cases h with
  | told | kept => rfl
  | queued => exact queuePoll_read (g := Machine.outerRecords) (fun _ _ _ => rfl) (fun _ _ _ => rfl) ..

theorem Touches.outerRecords {s t : State} (h : Touches s t) : outerRecords t = outerRecords s := by
  induction h with
  | refl => rfl
  | tail _ hlast ih => exact hlast.outerRecords.trans ih

/-- R84: an identity recorded. -/
def State.identify (n : Node) (i : Identity) (c : BitVec 4) (s : State) : State :=
  s.modNode n fun r => { r with identity := some i, noticeCount := c }

/-- R84: an identity is recorded, and, where its notices matter, the entries meet their new limits. -/
theorem recordIdentity_touches (n : Node) (i : Identity) (c : BitVec 4) (s : State) :
    Touches (s.identify n i c) (recordIdentity n i c s) := by
  unfold recordIdentity
  dsimp only
  split
  · exact .refl
  · exact forEntries_chain _ meetLimit_touches _

/-- R31: the period of a class set. -/
def State.retime (c : Fin 4) (p : Word16) (s : State) : State := { s with periods := upd s.periods c fun _ => p }

theorem retimed_touches (c : Fin 4) (p : Word16) (s : State) :
    Touches (s.retime c p) (checkLimits { s with periods := upd s.periods c fun _ => p }) := checkLimits_touches _

/-- A change of these records is one of the three kinds that name them. -/
theorem Act.outerRecords {port : Scope} {net : Bool} {s t : State} (h : Act port net s t) :
    outerRecords t = outerRecords s
    ∨ (∃ n f, t = s.modClaim n f ∧ (ClaimRecordOk (s.claims.get n) → ClaimRecordOk (f (s.claims.get n))))
    ∨ (net = true ∧ ∃ n f, Machine.outerRecords t = Machine.outerRecords (s.modNode n f))
    ∨ (net = true ∧ ∃ l f, t = s.modLink l f ∧ (LinkRecordOk (s.links.get l) → LinkRecordOk (f (s.links.get l)))) := by
  cases h with
  | claimed n f _ hok => exact .inr (.inl ⟨n, f, rfl, hok⟩)
  | noded hn n f => exact .inr (.inr (.inl ⟨hn, n, f, rfl⟩))
  | identified hn n i c =>
    refine .inr (.inr (.inl ⟨hn, n, fun r => { r with identity := some i, noticeCount := c }, ?_⟩))
    exact Touches.outerRecords (recordIdentity_touches n i c s)
  | retimed c p =>
    have hkept := Touches.outerRecords (retimed_touches c p s)
    exact .inl hkept
  | linked hn l f _ hok => exact .inr (.inr (.inr ⟨hn, l, f, rfl, hok⟩))
  | touch h => exact .inl h.outerRecords
  | aside _ _ _ _ _ hclaims hnodes hlinks => exact .inl (by simp [Machine.outerRecords, hclaims, hnodes, hlinks])
  | suspended =>
    exact .inl (suspendEntry_read (g := Machine.outerRecords) (fun _ _ _ => rfl) (fun _ _ _ => rfl) ..)
  | emptied => exact .inl (emptyPollQueue_read (g := Machine.outerRecords) (fun _ _ _ => rfl) (fun _ _ _ => rfl) ..)
  | granted =>
    exact .inl (grantOne_read (g := Machine.outerRecords) (fun _ _ _ => rfl) (fun _ _ _ => rfl) (fun _ _ _ => rfl)
      (fun _ _ _ => rfl) ..)
  | freed => exact .inl (by unfold freeSlot; split <;> rfl)
  | lapsed | finished | writeEnded =>
    exact .inl (finishWrite_read (g := Machine.outerRecords) (fun _ _ _ => rfl) (fun _ _ _ => rfl) (fun _ _ _ => rfl)
      (fun _ _ _ => rfl) ..)
  | _ => exact .inl rfl

/-- Where links and Node Directory do not act, their records stay. -/
theorem Acts.nodes_links {port : Scope} {s t : State} (h : Acts port false s t) : t.nodes = s.nodes ∧ t.links = s.links := by
  induction h with
  | refl => exact ⟨rfl, rfl⟩
  | tail _ hlast ih =>
    rcases hlast.outerRecords with heq | ⟨n, f, rfl, -⟩ | ⟨hn, -⟩ | ⟨hn, -⟩
    · simp only [Machine.outerRecords, Prod.mk.injEq] at heq
      exact ⟨heq.2.1.trans ih.1, heq.2.2.trans ih.2⟩
    · exact ih
    · contradiction
    · contradiction

end Sys2Proof.Machine

/-!
# The rules as chains of changes

Each rule of Machine/ is a chain of changes (`Acts`). Where a rule moves a node's presence or a link's state, its parts do not keep
what traffic and presence have in common: such rules are also taken as units (`Move`), and every row as a chain of these.
-/

namespace Sys2Proof.Machine

set_option Elab.async false

section
variable {port : Scope} {net : Bool}

/-! ## Changes outside of queues, entries, arbiters and hosts -/

section
variable (s : State)

theorem modNode_acts (n : Node) {f : NodeRecord → NodeRecord} (hidentity : ∀ r, (f r).identity = r.identity) :
    Acts port true s (s.modNode n f) := .single (.noded rfl n f s hidentity)

theorem modLink_acts {l : Link} {f : LinkRecord → LinkRecord} (hok : LinkRecordOk (s.links.get l) → LinkRecordOk (f (s.links.get l))) :
    Acts port true s (s.modLink l f) := .single (.linked rfl l f s hok)

theorem State.modLink_modLink (l : Link) (f g : LinkRecord → LinkRecord) : (s.modLink l f).modLink l g = s.modLink l fun k => g (f k) := by
  simp only [State.modLink, upd_upd]

theorem choices_acts (n : Nat) : Acts port net s { s with choices := n } := .single (.aside rfl rfl rfl rfl rfl rfl rfl rfl rfl id)

theorem due_acts (d : EventParts) (hd : s.freshOk → s.due.stale = true → d.stale = true ∨ ∀ i, ∀ e ∈ s.entry i, s.pastLimit e = false) :
    Acts port net s { s with due := d } := by
  refine .single (.aside rfl rfl rfl rfl rfl rfl rfl rfl rfl fun hs => ⟨hs.1, fun i e he hpast => ?_⟩)
  rcases hd hs (hs.2 i e he hpast) with h | h
  · exact h
  · exact absurd hpast (Bool.not_eq_true _ ▸ h i e he)

theorem due_acts_of_stale (d : EventParts) (hd : d.stale = s.due.stale) : Acts port net s { s with due := d } :=
  due_acts s d fun _ h => .inl (hd.trans h)

theorem notify_acts (h : Host) (b : EventBody) : Acts port net s (notify h b s) := .of_touches (notify_touches ..)

theorem broadcast_acts (b : EventBody) : Acts port net s (broadcast b s) := .of_touches (broadcast_touches ..)

end

/-- Either order of two owners is a chain when each owner's part is; neither acts on the Node Directory. -/
theorem eitherOrder_acts (b : Bool) {f k : State → State} {s : State} (hf : ∀ m u, u.nodes = s.nodes → Acts port m u (f u))
    (hk : ∀ m u, u.nodes = s.nodes → Acts port m u (k u)) : Acts port net s (eitherOrder b f k s) := by
  obtain ⟨n, h | h⟩ := eitherOrder_cases b f k s <;> rw [h]
  · exact after (hk _ _ (hf false { s with choices := n } rfl).nodes_links.1) (after (hf _ _ rfl) (choices_acts s n))
  · exact after (hf _ _ (hk false { s with choices := n } rfl).nodes_links.1) (after (hk _ _ rfl) (choices_acts s n))

/-! ## The Claim Unit -/

/-- R67, R69: a lease of some length that starts for a host that does not wait is well formed. -/
theorem claimRecordOk_hold {c : ClaimRecord} (h : Host) {lease : Byte} (e : Word32) (hlease : lease ≠ 0)
    (hno : ∀ w ∈ c.waiters, w.host ≠ h) (hok : ClaimRecordOk c) :
    ClaimRecordOk { c with holder := some { host := h, lease := lease, leaseEnd := e } } := by
  obtain ⟨hlen, hnodup, -, -, hleases⟩ := hok
  refine ⟨hlen, hnodup, by simp, fun k hk => ?_, hleases⟩
  cases hk
  exact ⟨hlease, hno⟩

/-- R68: the head waiter is granted, or the record is free. -/
theorem claimRecordOk_pass {c : ClaimRecord} {w : Waiter} {rest : List Waiter} (e : Word32) (hc : c.waiters = w :: rest)
    (hok : ClaimRecordOk c) :
    ClaimRecordOk { holder := some { host := w.host, lease := w.lease, leaseEnd := e }, waiters := rest } := by
  obtain ⟨hlen, hnodup, -, -, hleases⟩ := hok
  rw [hc] at hlen hnodup hleases
  simp only [List.length_cons] at hlen
  rw [List.map_cons, List.nodup_cons] at hnodup
  refine ⟨by dsimp only; omega, hnodup.2, by simp, fun k hk => ?_, fun x hx => hleases x (List.mem_cons_of_mem _ hx)⟩
  cases hk
  exact ⟨hleases w List.mem_cons_self, fun x hx heq => hnodup.1 (List.mem_map.2 ⟨x, hx, heq⟩)⟩

theorem claimRecordOk_filter {c : ClaimRecord} (p : Waiter → Bool) (hok : ClaimRecordOk c) :
    ClaimRecordOk { c with waiters := c.waiters.filter p } := by
  obtain ⟨hlen, hnodup, hfree, hheld, hleases⟩ := hok
  have hsub := List.filter_sublist (p := p) (l := c.waiters)
  refine ⟨hsub.length_le.trans hlen, hnodup.sublist (hsub.map _), fun hnone => ?_, fun k hk => ?_,
    fun w hw => hleases w (hsub.subset hw)⟩
  · simp [hfree hnone]
  · exact ⟨(hheld k hk).1, fun w hw => (hheld k hk).2 w (hsub.subset hw)⟩

theorem withdrawWait_acts (n : Node) (h : Host) (s : State) : Acts port net s (withdrawWait n h s) :=
  .single (.claimed n _ s (claimRecordOk_filter _))

theorem releaseClaim_acts (n : Node) (s : State) : Acts port net s (releaseClaim n s) := by
  rcases hw : (s.claims.get n).waiters with _ | ⟨w, rest⟩
  · rw [releaseClaim_free hw]
    exact .single (.claimed n _ s fun _ => by simp [ClaimRecordOk, hw])
  · rw [releaseClaim_granted hw]
    exact after (notify_acts ..) (.single (.claimed n _ s (claimRecordOk_pass _ hw)))

theorem expireClaims_acts (s : State) : Acts port net s (expireClaims s) := by
  refine forNodes_chain (fun n s => ?_) s
  unfold expireClaim
  split
  · exact .refl
  · exact chain_ite (after (releaseClaim_acts ..) (notify_acts ..)) .refl

theorem clearClaims_acts (h : Host) (s : State) : Acts port net s (clearClaims h s) :=
  forNodes_chain (fun n s => chain_ite (releaseClaim_acts n s) (withdrawWait_acts n h s)) s

/-! ## The write queues -/

theorem completeDrain_writeQueues (h : Host) (s : State) : (completeDrain h s).writeQueues = s.writeQueues :=
  completeDrain_read (fun _ _ _ => rfl) ..

/-- R55, R56: a record that has ended is no longer in its queue, and no other queue changes. -/
theorem finishWrite_writeQueues (l : Link) (r : WriteRecord) (o : Reason) (s : State) :
    (finishWrite l r o s).writeQueues = (s.modWrites l (freeRecord r)).writeQueues := by
  have htold := tellEnding_writeQueues r o s
  simp only [finishWrite_eq]
  split <;> split <;> simp [completeDrain_writeQueues, countDrainFailure, htold]

/-- Records that are in the order and not OUTSTANDING end one after another. -/
theorem finishWrites_acts (l : Link) (why : Reason) (xs : List WriteRecord) (s : State)
    (hsub : xs.Sublist (s.writeQueues.get l).order) (hstate : ∀ x ∈ xs, x.state ≠ .outstanding) :
    Acts port net s (xs.foldl (fun s r => finishWrite l r why s) s) := by
  induction xs generalizing s with
  | nil => exact .refl
  | cons x xs ih =>
    have hx : x ∈ (s.writeQueues.get l).order := hsub.subset List.mem_cons_self
    refine .head (.finished l x why s hx (hstate x List.mem_cons_self)) (ih _ ?_ fun y hy => hstate y (List.mem_cons_of_mem _ hy))
    have herase := hsub.erase x
    rw [List.erase_cons_head] at herase
    simpa [finishWrite_writeQueues, freeRecord] using herase

theorem failWrites_acts (l : Link) {p : WriteRecord → Bool} (why : Reason) (hp : ∀ r, p r = true → r.state ≠ .outstanding)
    (s : State) : Acts port net s (failWrites l p why s) :=
  finishWrites_acts l why _ s List.filter_sublist fun x hx => hp x (List.of_mem_filter hx)

theorem failNodeWrites_acts (n : Node) {st : WriteState} (why : Reason) (hst : st ≠ .outstanding) (s : State) :
    Acts port net s (failNodeWrites n st why s) :=
  failWrites_acts _ _ (fun r hr => by simp only [decide_eq_true_eq] at hr; exact hr.2 ▸ hst) s

theorem lapseReservations_acts (l : Link) (p : WriteRecord → Bool) (why : Reason) (s : State) :
    Acts port net s (lapseReservations l p why s) :=
  .single (.rereserved l (fun r => if p r && r.lapse.isNone then { r with lapse := some why } else r) s
    (fun r => by split <;> exact ⟨rfl, rfl, rfl⟩) fun r => by split <;> simp)

theorem holdWrites_acts (n : Node) (s : State) (hn : s.presence n = .identifying) : Acts port net s (holdWrites n s) :=
  .single (.restated (nodeLink n) (fun r => r.node = n ∧ r.state = .queued) .held s (fun _ hr => .inl hr.2) (.inr rfl)
    fun _ hr => hr.1 ▸ hn)

theorem releaseWrites_acts (n : Node) (s : State) (hn : s.presence n = .present) : Acts port net s (releaseWrites n s) := by
  have hfail (m : Bool) := failWrites_acts (port := port) (net := m) (nodeLink n)
    (p := fun r => decide (r.node = n ∧ r.state = .held) && decide (s.maxLength n < r.data.length)) .tooLong
    (fun r hr => by simp only [Bool.and_eq_true, decide_eq_true_eq] at hr; simp [hr.1.2]) s
  refine after (.single (.restated (nodeLink n) (fun r => r.node = n ∧ r.state = .held) .queued _ (fun _ hr => .inr hr.2) (.inl rfl)
    fun r hr => ?_)) (hfail net)
  rw [hr.1, State.presence, (hfail false).nodes_links.1]
  exact hn

theorem dropReservation_acts (h : Host) (l : Link) (s : State) : Acts port net s (dropReservation h l s) := .single (.dropped ..)

/-- The result of the taken record: its sequence number is given first, and the queue's part does not read the counter. -/
theorem takeWrite_acts (h : Host) (l : Link) (s : State) : Acts port net s (takeWrite h l s) := by
  cases hr : s.reservation h l with
  | none => rw [takeWrite_none hr]
  | some r =>
    let counted := s.modHost h fun hs => { hs with seqCounter := incSkipZero (s.hosts.get h).seqCounter }
    have hcounted : Acts port net s counted := .single (.recorded h _ s (fun _ => ⟨rfl, rfl, rfl⟩) fun _ => ⟨rfl, rfl, rfl⟩)
    simp only [takeWrite, hr]
    split
    · exact dropReservation_acts ..
    · split
      · next why hlapse => exact hcounted.tail (.lapsed h l r why _ counted hr hlapse)
      · next hlapse => exact hcounted.tail (.taken h l r _ counted hr hlapse)

/-! ## The arbiters -/

theorem finishFetch_acts (h : Host) (tk : Byte) (rep : Bool) (n : Node) (a : Word16) (len : Nat) (o : Reason) (data : List Byte)
    (s : State) : Acts port net s (finishFetch h tk rep n a len o data s) := by
  unfold finishFetch
  split
  · exact after (notify_acts ..) (.single (.recorded h _ s (fun _ => ⟨rfl, rfl, rfl⟩) fun _ => ⟨rfl, rfl, rfl⟩))
  · exact .refl

theorem Request.SameWork.rfl {r : Request} : r.SameWork r := ⟨Eq.refl _, fun _ => Eq.refl _, fun _ => Eq.refl _, Eq.refl _, Eq.refl _, Eq.refl _, Eq.refl _⟩

/-- The same tags and the same pending fetches are the same work. -/
theorem Arbiter.SameWork.of_eq {a a' : Arbiter} (htags : a'.tags = a.tags) (hfetches : a'.fetches = a.fetches) : a.SameWork a' where
  fetches := hfetches
  request t := by
    rw [htags]
    cases (a.tags.get t).request with
    | none => exact .none
    | some r => exact .some .rfl

/-- A request replaced by one for the same work. -/
theorem Arbiter.SameWork.of_upd {a a' : Arbiter} {t : Tag} {f : Request → Request}
    (htags : a'.tags = upd a.tags t fun tr => { tr with request := tr.request.map f }) (hfetches : a'.fetches = a.fetches)
    (hf : ∀ r : Request, r.SameWork (f r)) : a.SameWork a' where
  fetches := hfetches
  request u := by
    rw [htags, get_upd]
    split
    · next hu =>
      subst hu
      dsimp only
      cases (a.tags.get u).request with
      | none => exact .none
      | some r => exact .some (hf r)
    · cases (a.tags.get u).request with
      | none => exact .none
      | some r => exact .some .rfl

theorem Request.copySent_sameWork (r : Request) (k : LinkRecord) : r.SameWork (r.copySent k) :=
  ⟨Eq.refl _, fun _ => Eq.refl _, fun _ => Eq.refl _, Eq.refl _, Eq.refl _, Eq.refl _, Eq.refl _⟩

theorem Request.resent_sameWork (r : Request) : r.SameWork r.resent :=
  ⟨Eq.refl _, fun _ => Eq.refl _, fun _ => Eq.refl _, Eq.refl _, Eq.refl _, Eq.refl _, Eq.refl _⟩

theorem Request.unreport_sameWork (h : Host) (r : Request) : r.SameWork (r.unreport h) := by
  unfold Request.unreport
  split
  · next x ticket reported hk => constructor <;> simp [Request.polled, Request.fetchOf, Request.isWrite, hk]
  all_goals exact .rfl

/-- A change of an arbiter that leaves its tags and fetches. -/
theorem lined_acts (l : Link) {f : Arbiter → Arbiter} (hf : ∀ a, (f a).tags = a.tags ∧ (f a).fetches = a.fetches) (s : State)
    (hquiet : (s.arbiters.get l).Quieter (f (s.arbiters.get l))) :
    Acts port net s (s.modArbiter l f) := .single (.lined l f s (.of_eq (hf _).1 (hf _).2) (.inr hquiet))

theorem Arbiter.Quieter.of_eq {a a' : Arbiter} (hidents : a'.idents = a.idents) (hcopies : a'.txOrder = a.txOrder)
    (hline : a'.onLine = a.onLine) : a.Quieter a' :=
  ⟨hidents ▸ .refl _, fun h h' => ⟨hcopies.trans h, hline.trans h'⟩⟩

theorem goQuiet_acts (l : Link) (s : State) : Acts port net s (goQuiet l s) :=
  lined_acts l (by exact fun _ => ⟨rfl, rfl⟩) s ⟨.refl _, fun _ _ => ⟨rfl, rfl⟩⟩

theorem issueIdent_acts (n : Node) (s : State) : Acts port true s (issueIdent n s) :=
  .single (.lined (nodeLink n) (fun a => { a with idents := a.idents ++ [n] }) s (.of_eq rfl rfl) (.inl rfl))

theorem grantLink_acts (l : Link) (s : State) : Acts port net s (grantLink l s) :=
  have h s : Acts port net s (grantOne l s) := .single (.granted l s)
  after (h _) (after (h _) (after (h _) (after (h _) (after (h _) (after (h _) (after (h _) (h _)))))))

theorem grants_acts (s : State) : Acts port net s (grants s) := after (grantLink_acts 1 _) (grantLink_acts 0 s)

theorem copySent_acts (l : Link) (s : State) : Acts port net s (copySent l s) := by
  have hshown (frame : List Byte) (s : State) : Acts port net s (s.modArbiter l fun a => { a with sentFrame := frame }) :=
    lined_acts l (by exact fun _ => ⟨rfl, rfl⟩) s (.of_eq rfl rfl rfl)
  rcases copySent_cases l s with ⟨-, -, h⟩ | ⟨-, -, h⟩ | ⟨-, -, h⟩ <;> rw [h]
  · exact hshown ..
  · refine after (hshown _ _) ?_
    rcases requestSent_cases l s with ⟨bytes, -, h⟩ | ⟨-, -, h⟩ | ⟨t, rest, -, hcopies, h⟩ <;> rw [h]
    · exact lined_acts l (by exact fun _ => ⟨rfl, rfl⟩) s ⟨.refl _, fun h _ => ⟨h, rfl⟩⟩
    · exact .single (.lined l _ s (.of_upd rfl rfl fun r => r.copySent_sameWork _)
        (.inr ⟨.refl _, fun h => absurd (hcopies.symm.trans h) (List.cons_ne_nil _ _)⟩))

theorem resend_acts (l : Link) (t : Tag) (s : State) : Acts port true s (resend l t s) :=
  after (modLink_acts _ id) (.single (.lined l _ s (.of_upd rfl rfl fun r => r.resent_sameWork) (.inl rfl)))

theorem keepBegun_acts (l : Link) (t : Tag) (r : Request) (s : State) : Acts port net s (keepBegun l t r s) := by
  rcases keepBegun_cases l t r s with ⟨-, h⟩ | ⟨hbegun, h | h⟩ <;> rw [h]
  · exact choices_acts ..
  · simp only [Arbiter.mayHaveBegun, Bool.and_eq_true, decide_eq_true_eq] at hbegun
    have hwaits := hbegun.2
    refine after (lined_acts l (by exact fun _ => ⟨rfl, rfl⟩) _ ⟨.refl _, fun hno => ?_⟩) (choices_acts s _)
    have hno : (s.arbiters.get l).txOrder = [] := hno
    simp [hno] at hwaits

theorem keepBegunOf_acts (l : Link) (p : Request → Bool) (s : State) : Acts port net s (keepBegunOf l p s) := by
  rcases keepBegunOf_cases l p s with h | ⟨t, rest, r, -, -, -, h⟩ <;> rw [h]
  exact keepBegun_acts ..

/-- Whether a copy of it has begun is not seen in the request. -/
theorem keepBegun_request (l : Link) (t : Tag) (r : Request) (s : State) (m : Link) (u : Tag) :
    (keepBegun l t r s).request m u = s.request m u := by
  rcases keepBegun_cases l t r s with ⟨-, h⟩ | ⟨-, h | h⟩ <;> rw [h]
  · rfl
  · rw [State.modArbiter_request]
    split
    · next hm => subst hm; rfl
    · rfl

theorem acceptFill_touches (i : SlotIx) (e : Entry) (data : List Byte) (s : State) :
    Touches (s.modEntry i fun e' => { e' with data := data.map some, age := 0, phase := .idle, repoll := false,
                                              state := if e'.repoll then .stale else .valid }) (acceptFill i e data s) := by
  unfold acceptFill
  dsimp only
  generalize s.modEntry i _ = u
  have hagain : Touches u (if e.repoll = true then queuePoll i u else u) := chain_ite (queuePoll_touches ..) .refl
  exact after (evaluateWatches_touches ..) (chain_ite (after (entryEvent_touches ..) hagain) hagain)

theorem failPoll_touches (i : SlotIx) (e : Entry) (o : Reason) (s : State) :
    Touches (s.modEntry i fun e' => { e' with state := .failed, fault := o, phase := .idle, repoll := false })
      (failPoll i e o s) := by
  unfold failPoll
  dsimp only
  generalize s.modEntry i _ = u
  have htold : Touches u (if e.state = .failed then u else entryEvent i .entryFailed o u) := chain_ite .refl (entryEvent_touches ..)
  exact chain_ite (after (queuePoll_touches ..) htold) htold

/-- A poll's ending that applies is one change of its entry, and then what the owner does with it. -/
theorem applyPollEnding_touches {i : SlotIx} {e : Entry} {s : State} (he : s.entry i = some e) (ep : Word16) (o : Reason)
    (data : List Byte) (hdata : o = .ok → data.length = e.length) :
    ∃ f : Entry → Entry, e.Keeps (f e) ∧ (f e).phase = .idle ∧ (f e).repoll = false ∧ s.Allows e (f e) ∧
      Touches (s.modEntry i f) (applyPollEnding i (s.slots.get i).generation e.node e.first e.length ep o data s) := by
  have hkeep {e' : Entry} (hnode : e'.node = e.node) (hfirst : e'.first = e.first) (hlength : e'.length = e.length)
      (hholders : e'.holders = e.holders) (hrepoll : e'.repoll = false) : e.Keeps e' :=
    ⟨hnode, hfirst, hlength, by simp [Entry.holderCount, Entry.heldBy, hholders], by simp [hrepoll]⟩
  have hsame {e' : Entry} (hnode : e'.node = e.node) (hholders : e'.holders = e.holders) (hstate : e'.state = e.state)
      (hage : e'.age = e.age) : s.Allows e e' :=
    .of_values hnode (by simp only [Entry.requests, hholders]) (by rw [hstate]) fun hv => .inr ⟨hage, hstate ▸ hv⟩
  simp only [applyPollEnding, pollApplies_eq_true he, he, Bool.not_true, Bool.false_eq_true, if_false]
  split
  · exact ⟨_, by exact hkeep rfl rfl rfl rfl rfl, by rfl, by rfl, by exact hsame rfl rfl rfl rfl, .refl⟩
  · next hnot =>
    split
    · split
      · have hlen : (data.map some).length = e.length := by simpa using hdata rfl
        refine ⟨fun e' => { e' with data := data.map some, age := 0, phase := .idle, repoll := false,
                                    state := if e'.repoll then .stale else .valid },
          hkeep rfl rfl hlen rfl rfl, rfl, rfl, .of_values rfl rfl ?_ fun _ => .inl rfl, ?_⟩
        · dsimp only
          split <;> simp [hnot]
        · exact acceptFill_touches ..
      · exact ⟨_, by exact hkeep rfl rfl rfl rfl rfl, by rfl, by rfl, by exact hsame rfl rfl rfl rfl, queuePoll_touches ..⟩
    case h_2 | h_3 | h_4 =>
      exact ⟨_, by exact hkeep rfl rfl rfl rfl rfl, by rfl, by rfl, by exact .of_values rfl rfl (by simp [hnot]) (by simp),
        failPoll_touches ..⟩
    all_goals
      refine ⟨fun e' => { e' with phase := .idle, repoll := false }, hkeep rfl rfl rfl rfl rfl, rfl, rfl, hsame rfl rfl rfl rfl, ?_⟩
      exact chain_ite (queuePoll_touches ..) .refl

theorem pollApplies_eq_true_iff {s : State} {i : SlotIx} {g : Byte} {n : Node} {a : Word16} {len : Nat} :
    pollApplies s i g n a len = true ↔ ∃ e, s.entry i = some e ∧ (s.slots.get i).generation = g ∧ e.node = n ∧ e.first = a ∧
      e.length = len := by
  cases he : s.entry i <;> simp [pollApplies, he]

theorem withdraw_pollApplies (l : Link) (t : Tag) (s : State) : pollApplies (withdraw l t s) = pollApplies s := rfl

/-- A request ends: its tag is freed, and its owner acts on the ending. -/
theorem ended_acts {l : Link} {t : Tag} {r : Request} {s : State} (hr : s.request l t = some r) (o : Reason) (data : List Byte)
    (hdata : o = .ok → data.length = r.answerLength .ok) : Acts port net s (handOver l r o data (withdraw l t s)) := by
  have hwithdraw (hpoll : r.polled = none) (hwrite : r.isWrite = false) : Acts port net s (withdraw l t s) :=
    .single (.discarded l t r s hr (by simp [hpoll]) (by simp [hwrite]))
  unfold handOver
  split
  · next i g ep hk =>
    have hpolled : r.polled = some (i, g) := by simp [Request.polled, hk]
    by_cases happ : pollApplies s i g r.node r.address r.length = true
    · obtain ⟨e, he, rfl, hnode, hfirst, hlength⟩ := pollApplies_eq_true_iff.1 happ
      have hlen : o = .ok → data.length = e.length := fun ho => by
        rw [hdata ho, hlength]
        simp [Request.answerLength, hk]
      obtain ⟨f, hf, hidle, hmark, hallow, htouch⟩ := applyPollEnding_touches (s := withdraw l t s) he ep o data hlen
      rw [← hnode, ← hfirst, ← hlength]
      exact after (Acts.of_touches htouch)
        (.single (.pollEnded l t r i e f s hr he ⟨hpolled, hnode.symm, hfirst.symm, hlength.symm⟩ hf hidle hmark
          ⟨hallow.fresh, hallow.suspends, hallow.resumes⟩))
    · have hdiscard : applyPollEnding i g r.node r.address r.length ep o data (withdraw l t s) = withdraw l t s := by
        simp only [applyPollEnding, withdraw_pollApplies, Bool.not_eq_true _ ▸ happ, Bool.not_false, if_true]
      rw [hdiscard]
      refine .single (.discarded l t r s hr (fun j g' hj => ?_) (by simp [Request.isWrite, hk]))
      obtain ⟨rfl, rfl⟩ : i = j ∧ g = g' := by simpa [hpolled] using hj
      simpa using happ
  · next hk => exact after (finishFetch_acts ..) (hwithdraw (by simp [Request.polled, hk]) (by simp [Request.isWrite, hk]))
  · next hk =>
    split
    · next hno => exact .single (.discarded l t r s hr (by simp [Request.polled, hk]) fun _ => hno)
    · next w hw => exact .single (.writeEnded l t r w o s hr (by simp [Request.isWrite, hk]) hw)
  · next hk => exact hwithdraw (by simp [Request.polled, hk]) (by simp [Request.isWrite, hk])

theorem endRequests_acts (l : Link) (p : Request → Bool) {why : Request → Reason} (hwhy : ∀ r, why r ≠ .ok) (s : State) :
    Acts port net s (endRequests l p why s) := by
  refine after (forTags_chain (fun t s => ?_) _) (keepBegunOf_acts l p s)
  split
  · exact .refl
  · next r hr =>
    split
    · exact ended_acts hr _ _ fun h => absurd h (hwhy r)
    · exact .refl

theorem endFetches_acts (l : Link) (p : FetchItem → Bool) (why : Reason) (s : State) : Acts port net s (endFetches l p why s) :=
  after (foldl_chain (fun _ _ => finishFetch_acts ..) _ _) (.single (.unfetched l (fun f => !p f) s))

/-! ## The Node Directory -/

theorem nodeEvent_acts (k : EventKind) (n : Node) (why : Reason) (v : Word16) (s : State) : Acts port net s (nodeEvent k n why v s) :=
  broadcast_acts ..

theorem suspendEntry_acts (i : SlotIx) (s : State) : Acts port net s (suspendEntry i s) := .single (.suspended ..)

theorem leavingReason_ne_ok {why : Reason} (hwhy : why ≠ .ok) (r : Request) : leavingReason why r ≠ .ok := by
  unfold leavingReason
  split
  · simp
  · exact hwhy

theorem endNodeRequests_acts (n : Node) {why : Reason} (hwhy : why ≠ .ok) (s : State) : Acts port net s (endNodeRequests n why s) :=
  after (endFetches_acts ..) (endRequests_acts _ _ (leavingReason_ne_ok hwhy) s)

theorem leaveNodeWrites_acts (n : Node) (why : Reason) (s : State) (hn : why = .nodeRestarted → s.presence n = .identifying) :
    Acts port net s (leaveNodeWrites n why s) := by
  unfold leaveNodeWrites
  dsimp only
  split
  · next hwhy => exact after (lapseReservations_acts ..) (holdWrites_acts n s (hn hwhy))
  · exact after (lapseReservations_acts ..) (failNodeWrites_acts _ _ (by simp) _)

/-- R80: what the owners do once the presence has changed. -/
theorem leavePresent_rest_acts (n : Node) {why : Reason} (hwhy : why ≠ .ok) {s : State}
    (hn : why = .nodeRestarted → s.presence n = .identifying) (b : Bool) :
    Acts port net s (suspendNode n (eitherOrder b (endNodeRequests n why) (leaveNodeWrites n why) s)) :=
  after (forEntries_chain _ suspendEntry_acts _) (eitherOrder_acts _ (fun _ u _ => endNodeRequests_acts n hwhy u)
    fun _ u hu => leaveNodeWrites_acts n why u fun h => by rw [State.presence, hu]; exact hn h)

theorem leavePresent_acts (n : Node) (p : Presence) (cause : Option IdentCause) {why : Reason} (hwhy : why ≠ .ok)
    (hp : why = .nodeRestarted → p = .identifying) (s : State) : Acts port true s (leavePresent n p cause why s) :=
  after (leavePresent_rest_acts n hwhy (fun h => by simpa [State.modNode_presence] using hp h) _)
    (modNode_acts s n (f := fun r => { r with presence := p, cause := cause, timeouts := 0 }) fun _ => rfl)

theorem beginIdent_acts (n : Node) (c : IdentCause) (s : State) : Acts port true s (beginIdent n c s) :=
  after (issueIdent_acts ..) (modNode_acts s n fun _ => rfl)

/-- R101: a link record that enters ENUMERATING. -/
def LinkRecord.enumerate (k : LinkRecord) (count : Word32) : LinkRecord :=
  { k with state := .enumerating, stamp := low16 count, deadline := none, silence := 0 }

theorem enterEnumerating_acts (l : Link) {f : LinkRecord → LinkRecord} {s : State}
    (hok : LinkRecordOk (s.links.get l) → LinkRecordOk ((f (s.links.get l)).enumerate s.timeBase)) :
    Acts port true s (enterEnumerating l (s.modLink l f)) := by
  have hlink : Acts port true s ((s.modLink l f).modLink l fun k => k.enumerate s.timeBase) := by
    rw [State.modLink_modLink]
    exact modLink_acts s hok
  exact after (foldl_chain (fun _ _ => beginIdent_acts ..) _ _) hlink

/-- R101: an ENUMERATING link enters UP. -/
theorem linkRecordOk_up {k : LinkRecord} (stamp : Word16) (hstate : k.state = .enumerating) (hok : LinkRecordOk k) :
    LinkRecordOk { k with state := .up, stamp := stamp } := by
  simpa [LinkRecordOk, hstate, LinkState.running] using hok

theorem reportEnumeration_acts (l : Link) (s : State) : Acts port true s (reportEnumeration l s) := by
  unfold reportEnumeration
  split
  · next hopen => exact after (broadcast_acts ..) (modLink_acts s (linkRecordOk_up _ hopen.1))
  · exact .refl

theorem recordIdentity_acts (n : Node) (i : Identity) (c : BitVec 4) (s : State) : Acts port true s (recordIdentity n i c s) :=
  .single (.identified rfl n i c s)

/-- R81: what the owners do once the node is PRESENT. -/
theorem becomePresent_rest_acts (n : Node) {s : State} (hn : s.presence n = .present) (b : Bool) :
    Acts port net s (eitherOrder b (resumeNode n) (releaseWrites n) s) :=
  have hat {u : State} (hu : u.nodes = s.nodes) : u.presence n = .present := by rw [State.presence, hu]; exact hn
  eitherOrder_acts _ (fun _ u hu => .of_touches (resumeNode_touches n u (hat hu))) fun _ u hu => releaseWrites_acts n u (hat hu)

theorem becomePresent_acts (n : Node) (k : Option EventKind) (m : Word16) (s : State) : Acts port true s (becomePresent n k m s) := by
  have hpresent : Acts port true s (s.modNode n fun r => { r with presence := .present, cause := none, timeouts := 0 }) :=
    modNode_acts s n fun _ => rfl
  cases k with
  | none => exact after (becomePresent_rest_acts n (by simp [State.modNode_presence]) _) hpresent
  | some k =>
    have htold (m : Bool) (s : State) := nodeEvent_acts (port := port) (net := m) k n .none ‹Word16› s
    refine after (becomePresent_rest_acts n ?_ _) (after (htold _ _) hpresent)
    rw [State.presence, (htold false _).nodes_links.1]
    simp

theorem identAnswered_acts (n : Node) (i : Identity) (c : BitVec 4) (s : State) : Acts port true s (identAnswered n i c s) := by
  unfold identAnswered
  dsimp only
  split
  · exact after (becomePresent_acts ..) (recordIdentity_acts ..)
  · exact after (failNodeWrites_acts _ _ (by simp) _) (after (nodeEvent_acts ..) (after (modNode_acts _ n fun _ => rfl) (recordIdentity_acts ..)))

theorem identFailed_acts (n : Node) (o : Reason) (s : State) : Acts port true s (identFailed n o s) := by
  have habsent : Acts port true s (s.modNode n fun r => { r with presence := .absent, cause := none }) := modNode_acts s n fun _ => rfl
  unfold identFailed
  exact after (failNodeWrites_acts _ _ (by simp) _) (chain_ite (after (nodeEvent_acts ..) habsent) habsent)

theorem identEnded_acts (n : Node) (o : Reason) (data : List Byte) (s : State) : Acts port true s (identEnded n o data s) := by
  unfold identEnded
  repeat' split
  all_goals first
    | exact .refl
    | exact after (reportEnumeration_acts ..) (identAnswered_acts ..)
    | exact after (reportEnumeration_acts ..) (identFailed_acts ..)

theorem restartNode_acts (n : Node) (s : State) : Acts port true s (restartNode n s) :=
  after (issueIdent_acts ..) (after (leavePresent_acts n _ _ (by simp) (fun _ => rfl) _) (nodeEvent_acts ..))

theorem freeTag_acts {l : Link} {t : Tag} {r : Request} {s : State} (hr : s.request l t = some r) (hident : r.isIdent = true) :
    Acts port net s (freeTag l t r s) := by
  have hkind : r.kind = .ident := by simpa [Request.isIdent] using hident
  exact (keepBegun_acts l t r s).tail (.discarded l t r _ ((keepBegun_request ..).trans hr) (by simp [Request.polled, hkind])
    (by simp [Request.isWrite, hkind]))

/-! ## The links -/

theorem failureReason_ne_ok (why : Reason) : failureReason why ≠ .ok := by unfold failureReason; split <;> simp

theorem departArbiter_acts (l : Link) {fail : Reason} (hfail : fail ≠ .ok) (s : State) : Acts port net s (departArbiter l fail s) := by
  have hcleared (u : State) : Acts port net u (u.modArbiter l fun a => { a with idents := [] }) :=
    lined_acts l (by exact fun _ => ⟨rfl, rfl⟩) u ⟨List.nil_sublist _, fun h h' => ⟨h, h'⟩⟩
  exact after (hcleared _) (after (endFetches_acts ..) (endRequests_acts _ _ (fun _ => hfail) s))

theorem departWrites_acts (l : Link) (fail : Reason) (s : State) : Acts port net s (departWrites l fail s) := by
  refine after (lapseReservations_acts ..) (failWrites_acts _ _ (fun r hr => ?_) s)
  simp only [decide_eq_true_eq] at hr
  rcases hr with hr | hr <;> simp [hr]

theorem departNodes_acts (l : Link) (s : State) : Acts port true s (departNodes l s) :=
  foldl_chain (fun u n => modNode_acts u n (f := fun r => { r with presence := .unknown, cause := none, timeouts := 0 }) fun _ => rfl) _ _

/-- R104: a link record that departs is one of a link out of service. -/
theorem linkRecordOk_depart {k : LinkRecord} {next : LinkState} (why : Reason) (count : Word32)
    (hnext : next = .off ∨ next = .down) (hbad : k.consecutiveBad ≤ 8) (hsync : k.syncRun ≤ 4) (htimeout : k.timeout ≠ 0)
    (hlimit : k.retryLimit ≤ 7) : LinkRecordOk (k.depart next why count) := by
  rcases hnext with rfl | rfl <;> simpa [LinkRecordOk, LinkRecord.depart, LinkState.running, hbad, hsync, hlimit] using htimeout

/-- R91: the four nodes of link `l` become UNKNOWN. -/
def NodeRecord.depart (r : NodeRecord) : NodeRecord := { r with presence := .unknown, cause := none, timeouts := 0 }

theorem mem_linkNodes {l : Link} {n : Node} : n ∈ linkNodes l ↔ nodeLink n = l := by
  revert l n
  decide

theorem foldl_modNode_nodes (f : NodeRecord → NodeRecord) {ns : List Node} (hns : ns.Nodup) (s : State) (n : Node) :
    (ns.foldl (fun s n => s.modNode n f) s).nodes.get n = if n ∈ ns then f (s.nodes.get n) else s.nodes.get n := by
  induction ns generalizing s with
  | nil => rfl
  | cons m ms ih =>
    obtain ⟨hm, hms⟩ := List.nodup_cons.1 hns
    rw [List.foldl_cons, ih hms, State.modNode_nodes, get_upd]
    by_cases hn : n = m
    · subst hn
      simp [hm]
    · simp [hn]

theorem linkNodes_nodup (l : Link) : (linkNodes l).Nodup := by revert l; decide

theorem departNodes_nodes (l : Link) (s : State) (n : Node) :
    (departNodes l s).nodes.get n = if nodeLink n = l then (s.nodes.get n).depart else s.nodes.get n := by
  unfold departNodes
  rw [foldl_modNode_nodes _ (linkNodes_nodup l)]
  simp only [mem_linkNodes]
  rfl

/-- R104: what the owners do once the link has departed, its nodes are UNKNOWN and its poll queue is empty. -/
theorem departLink_rest_acts (l : Link) (why : Reason) (b : Bool) (p : Entry → Bool) (s : State) :
    Acts port net s (forEntries p suspendEntry (eitherOrder b (departArbiter l (failureReason why)) (departWrites l (failureReason why)) s)) :=
  after (forEntries_chain _ suspendEntry_acts _) (eitherOrder_acts _ (fun _ u _ => departArbiter_acts l (failureReason_ne_ok why) u)
    fun _ u _ => departWrites_acts l _ u)

/-- A departure sets its link's record once, over what the rule before it has set; at one moment the poll queue is emptied. -/
theorem departLink_split (l : Link) (next : LinkState) (why : Reason) {f : LinkRecord → LinkRecord} {s : State}
    (hok : LinkRecordOk (s.links.get l) → LinkRecordOk ((f (s.links.get l)).depart next why s.timeBase)) :
    ∃ u, Acts port true s u ∧ Acts port false (emptyPollQueue l u) (departLink l next why (s.modLink l f)) := by
  have hquiet : Acts port true s (goQuiet l ((s.modLink l f).modLink l fun k => k.depart next why s.timeBase)) := by
    rw [State.modLink_modLink]
    exact after (goQuiet_acts ..) (modLink_acts s hok)
  have hleft (u : State) (hu : Acts port true s u) (b : Bool) (p : Entry → Bool) :
      ∃ v, Acts port true s v ∧ Acts port false (emptyPollQueue l v) (forEntries p suspendEntry (eitherOrder b
        (departArbiter l (failureReason why)) (departWrites l (failureReason why)) (emptyPollQueue l (departNodes l u)))) :=
    ⟨departNodes l u, after (departNodes_acts l u) hu, departLink_rest_acts l why b p _⟩
  unfold departLink
  exact hleft _ (chain_ite (after (broadcast_acts ..) hquiet) hquiet) _ _

/-! ## The rules that move presences and link states, as units -/

/-- A link state in which there is no traffic (R97, R113). -/
def LinkState.quiet (st : LinkState) : Prop := st ≠ .enumerating ∧ st ≠ .up

/-- A change of a node record that says nothing of the node's presence or identity. -/
def NodeRecord.Stays (f : NodeRecord → NodeRecord) : Prop :=
  ∀ r, (f r).presence = r.presence ∧ (f r).identity = r.identity

/-- A chain of changes that leaves nodes and links, or a rule that moves them. -/
inductive Move (port : Scope) : State → State → Prop
  | acts {s t : State} (h : ∀ net, Acts port net s t) : Move port s t
  | linked (l : Link) (f : LinkRecord → LinkRecord) (s : State)
      (hok : LinkRecordOk (s.links.get l) → LinkRecordOk (f (s.links.get l)))
      (hstate : (f (s.links.get l)).state = s.linkState l ∨ (s.linkState l).quiet ∧ (f (s.links.get l)).state.quiet) :
      Move port s (s.modLink l f)
  | resent (l : Link) (t : Tag) (r : Request) (s : State) (hr : s.request l t = some r) : Move port s (resend l t s)
  | noded (n : Node) (f : NodeRecord → NodeRecord) (s : State) (hf : NodeRecord.Stays f)
      (hok : NodeRecordOk (s.nodes.get n) → NodeRecordOk (f (s.nodes.get n))) : Move port s (s.modNode n f)
  | begun (n : Node) (cause : IdentCause) (f : NodeRecord → NodeRecord) (s : State) (hf : NodeRecord.Stays f)
      (htimeouts : ∀ r, (f r).timeouts = r.timeouts) (hn : s.presence n = .absent ∨ s.presence n = .quarantined) :
      Move port s (beginIdent n cause (s.modNode n f))
  | left (n : Node) (p : Presence) (why : Reason) (k : EventKind) (reason : Reason) (v : Word16) (f : NodeRecord → NodeRecord)
      (s : State) (hf : NodeRecord.Stays f) (hn : s.presence n = .present)
      (hp : (p = .absent ∧ why = .nodeLost) ∨ (p = .quarantined ∧ why = .quarantined)) :
      Move port s (leavePresent n p none why (nodeEvent k n reason v (s.modNode n f)))
  | restarted (n : Node) (s : State) (hn : s.presence n = .present) (hup : s.linkState (nodeLink n) = .up) :
      Move port s (restartNode n s)
  | departed (l : Link) (next : LinkState) (why : Reason) (f : LinkRecord → LinkRecord) (s : State)
      (hnext : next = .off ∨ next = .down) (hstate : (f (s.links.get l)).state = s.linkState l)
      (hrunning : (s.linkState l).running = true)
      (hok : LinkRecordOk (s.links.get l) → LinkRecordOk ((f (s.links.get l)).depart next why s.timeBase)) :
      Move port s (departLink l next why (s.modLink l f))
  | enumerated (l : Link) (f : LinkRecord → LinkRecord) (s : State) (hstate : s.linkState l = .training)
      (hok : LinkRecordOk (s.links.get l) → LinkRecordOk ((f (s.links.get l)).enumerate s.timeBase)) :
      Move port s (enterEnumerating l (s.modLink l f))
  | identEnded (l : Link) (t : Tag) (r : Request) (o : Reason) (data : List Byte) (s : State) (hr : s.request l t = some r)
      (hident : r.isIdent = true) : Move port s (identEnded r.node o data (freeTag l t r s))

/-- A chain of these. -/
abbrev Moves (port : Scope) : State → State → Prop := Relation.ReflTransGen (Move port)

theorem NodeRecord.Stays.id : NodeRecord.Stays fun r => r := fun _ => ⟨rfl, rfl⟩

/-- A unit is a chain of changes; in a departure a poll queue is emptied at one moment. -/
theorem Move.acts_or_departed {s t : State} (h : Move port s t) : Acts port true s t
    ∨ ∃ l next why v u, t = departLink l next why v ∧ Acts port true s u ∧ Acts port false (emptyPollQueue l u) t := by
  cases h with
  | acts h => exact .inl (h true)
  | linked l f _ hok => exact .inl (modLink_acts s hok)
  | resent l t => exact .inl (resend_acts l t s)
  | noded n f _ hf => exact .inl (modNode_acts s n fun r => (hf r).2)
  | begun n cause f _ hf => exact .inl (after (beginIdent_acts ..) (modNode_acts s n fun r => (hf r).2))
  | left n p why k reason v f _ hf _ hp =>
    exact .inl (after (leavePresent_acts n p none (by rintro rfl; simp at hp) (by rintro rfl; simp at hp) _)
      (after (nodeEvent_acts ..) (modNode_acts s n fun r => (hf r).2)))
  | restarted n => exact .inl (restartNode_acts n s)
  | departed l next why f _ _ _ _ hok =>
    obtain ⟨u, hfirst, hrest⟩ := departLink_split l next why hok
    exact .inr ⟨l, next, why, _, u, rfl, hfirst, hrest⟩
  | enumerated l f _ _ hok => exact .inl (enterEnumerating_acts l hok)
  | identEnded l t r o data _ hr hident => exact .inl (after (identEnded_acts ..) (freeTag_acts hr hident))

theorem Move.toActs {s t : State} (h : Move port s t) : Acts port.departing true s t := by
  rcases h.acts_or_departed with h | ⟨l, -, -, -, u, -, hfirst, hrest⟩
  · exact Acts.departing h
  · exact after (Acts.of_net hrest).departing ((Acts.departing hfirst).tail (.emptied rfl l u))

theorem Moves.toActs {s t : State} (h : Moves port s t) : Acts port.departing true s t := by
  induction h with
  | refl => exact .refl
  | tail _ hlast ih => exact ih.trans hlast.toActs

theorem Moves.of_acts {s t : State} (h : ∀ net, Acts port net s t) : Moves port s t := .single (.acts h)

/-- R98, R103, R107: a link record changes, but not the link's state. -/
theorem modLink_moves {l : Link} {f : LinkRecord → LinkRecord} {s : State}
    (hok : LinkRecordOk (s.links.get l) → LinkRecordOk (f (s.links.get l)))
    (hstate : (f (s.links.get l)).state = s.linkState l) : Moves port s (s.modLink l f) :=
  .single (.linked l f s hok (.inl hstate))

theorem State.modNode_id (n : Node) (s : State) : s.modNode n (fun r => r) = s := by simp only [State.modNode, upd_id]

theorem State.modLink_id (l : Link) (s : State) : s.modLink l (fun k => k) = s := by simp only [State.modLink, upd_id]

/-- R89, R90: the timeouts of a PRESENT node go on; with the third the node is lost. -/
theorem reportEnding_moves (n : Node) (o : Reason) (d : Bool) (s : State) : Moves port s (reportEnding n o d s) := by
  unfold reportEnding
  split
  · exact .refl
  · next hn =>
    have hn : s.presence n = .present := by simpa using hn
    have hanswered : Moves port s (s.modNode n fun r => { r with timeouts := 0 }) :=
      .single (.noded n _ s (fun _ => ⟨rfl, rfl⟩) fun ⟨hcause, _, _, hlength, hpinned⟩ => ⟨hcause, by simp, fun _ => rfl, hlength, hpinned⟩)
    split
    case h_1 =>
      split
      · exact .refl
      · dsimp only
        split
        · exact .single (.left n _ _ _ _ _ (fun r => { r with timeouts := r.timeouts + 1 }) s (fun _ => ⟨rfl, rfl⟩) hn (.inl ⟨rfl, rfl⟩))
        · next hfew =>
          refine .single (.noded n (fun r => { r with timeouts := r.timeouts + 1 }) s (fun _ => ⟨rfl, rfl⟩) fun ⟨hcause, _, _, hlength, hpinned⟩ =>
            ⟨hcause, ?_, fun hno => absurd hn hno, hlength, hpinned⟩)
          have hfew : ¬ 3 ≤ (s.nodes.get n).timeouts + 1 := by simpa using hfew
          dsimp only
          omega
    case h_2 | h_3 | h_4 => exact hanswered
    all_goals exact .refl

theorem endRequest_moves {l : Link} {t : Tag} {r : Request} {s : State} (hr : s.request l t = some r) (o : Reason) (data : List Byte)
    (hdata : o = .ok → data.length = r.answerLength .ok) : Moves port s (endRequest l t r o data s) := by
  unfold endRequest
  dsimp only
  split
  · next hident => exact .single (.identEnded l t r o data s hr hident)
  · have hended (net : Bool) : Acts port net s (handOver l r o data (freeTag l t r s)) :=
      after (ended_acts ((keepBegun_request ..).trans hr) o data hdata) (keepBegun_acts l t r s)
    exact after (reportEnding_moves ..) (Moves.of_acts hended)

theorem takeHello_moves (n : Node) (s : State) : Moves port s (takeHello n s) := by
  unfold takeHello
  split
  · next hup =>
    split
    case h_1 hn =>
      have hbegun := Move.begun (port := port) n .found (fun r => r) s .id (fun _ => rfl) (.inl hn)
      rw [State.modNode_id] at hbegun
      exact .single hbegun
    case h_2 hn => exact .single (.restarted n s hn hup)
    all_goals exact .refl
  · exact .refl

theorem pinNode_moves (n : Node) (pin : Pin) (s : State) : Moves port s (pinNode n pin s) := by
  have hpin : NodeRecord.Stays fun r => { r with pin := some pin } := fun _ => ⟨rfl, rfl⟩
  have hpresence : (s.modNode n fun r => { r with pin := some pin }).presence n = s.presence n := by
    simp [State.presence]
  have hpinned (hno : s.presence n ≠ .present) : Moves port s (s.modNode n fun r => { r with pin := some pin }) :=
    .single (.noded n _ s hpin fun ⟨hcause, hfew, hzero, hlength, _⟩ => ⟨hcause, hfew, hzero, hlength, fun h => absurd h hno⟩)
  unfold pinNode
  dsimp only
  rw [hpresence]
  split
  case h_1 hmatch =>
    refine .single (.noded n _ s hpin fun ⟨hcause, hfew, hzero, hlength, _⟩ => ⟨hcause, hfew, hzero, hlength, fun _ => ?_⟩)
    simpa [NodeRecord.matchesPin, Option.any_eq_true] using hmatch
  case h_2 hn hmatch => exact .single (.left n _ _ _ _ _ _ s hpin hn (.inr ⟨rfl, rfl⟩))
  case h_3 hn hmatch => exact .single (.begun n .lift _ s hpin (fun _ => rfl) (.inr hn))
  case h_4 hn hmatch | h_5 hn | h_6 hn | h_7 hn => exact hpinned (by simp [hn])

theorem unpinNode_moves (n : Node) (s : State) : Moves port s (unpinNode n s) := by
  have hunpin : NodeRecord.Stays fun r => { r with pin := none } := fun _ => ⟨rfl, rfl⟩
  unfold unpinNode
  dsimp only
  split
  · next hn =>
    have hn : s.presence n = .quarantined := by simpa [State.modNode_presence, State.presence] using hn
    exact .single (.begun n .lift _ s hunpin (fun _ => rfl) (.inr hn))
  · refine .single (.noded n _ s hunpin fun ⟨hcause, hfew, hzero, hlength, hpinned⟩ => ⟨hcause, hfew, hzero, hlength, fun h => ?_⟩)
    obtain ⟨i, hi, -⟩ := hpinned h
    exact ⟨i, hi, rfl⟩

theorem departLink_moves (l : Link) {next : LinkState} (why : Reason) (s : State) (hnext : next = .off ∨ next = .down)
    (hrunning : (s.linkState l).running = true) : Moves port s (departLink l next why s) := by
  have hdepart := Move.departed (port := port) l next why (fun k => k) s hnext rfl hrunning fun hok => by
    obtain ⟨hbad, -, hsync, -, -, -, htimeout, hlimit, -⟩ := hok
    exact linkRecordOk_depart why _ hnext hbad hsync htimeout hlimit
  rw [State.modLink_id] at hdepart
  exact .single hdepart

theorem takeBadFrame_moves (l : Link) (s : State) : Moves port s (takeBadFrame l s) := by
  unfold takeBadFrame
  split
  · exact .refl
  · next hrun =>
    have hrun : (s.linkState l).running = true := by simpa using hrun
    dsimp only
    split
    · refine .single (.departed l _ _ _ s (.inr rfl) rfl hrun fun hok => ?_)
      obtain ⟨-, hbad, hsync, -, -, -, htimeout, hlimit, -⟩ := hok
      refine linkRecordOk_depart _ _ (.inr rfl) ?_ ?_ htimeout hlimit
      · exact Nat.succ_le_succ (hbad hrun)
      · dsimp only
        split <;> omega
    · next hfew =>
      refine modLink_moves (fun hok => ?_) rfl
      obtain ⟨-, -, hsync, htrain, hdeadline, hhold, htimeout, hlimit, hreceived⟩ := hok
      have hfew : (s.links.get l).consecutiveBad + 1 ≤ 7 := by simpa using hfew
      refine ⟨by dsimp only; omega, fun _ => hfew, ?_, fun htraining => ?_, hdeadline, hhold, htimeout, hlimit, hreceived⟩
      · dsimp only
        split <;> omega
      · dsimp only at htraining ⊢
        simp [htraining]

/-- R99: a good frame leaves a link's record in order, if its SYNC run stays below 4. -/
theorem linkRecordOk_goodFrame {k : LinkRecord} (sync : Bool)
    (hrun : k.state = .training → (k.goodFrame sync).syncRun ≤ 3) (hok : LinkRecordOk k) : LinkRecordOk (k.goodFrame sync) := by
  obtain ⟨-, -, hsync, -, hdeadline, hhold, htimeout, hlimit, hreceived⟩ := hok
  refine ⟨by simp [LinkRecord.goodFrame], by simp [LinkRecord.goodFrame], ?_, hrun, hdeadline, hhold, htimeout, hlimit, hreceived⟩
  by_cases ht : k.state = .training
  · exact (hrun ht).trans (by omega)
  · simpa [LinkRecord.goodFrame, ht] using hsync

theorem takeSync_moves (l : Link) (s : State) : Moves port s (takeSync l s) := by
  unfold takeSync
  split
  · exact .refl
  · dsimp only
    split
    · next hfourth =>
      have htraining : (s.links.get l).state = .training := by
        simpa [State.modLink_linkState, LinkRecord.goodFrame] using hfourth.1
      refine .single (.enumerated l _ s htraining fun hok => ?_)
      obtain ⟨-, -, -, hsync, -, hhold, htimeout, hlimit, -⟩ := hok
      have hsync := hsync htraining
      have hhold : (s.links.get l).holdOff = none := by
        simpa [htraining, Option.isSome_iff_ne_none] using hhold
      refine ⟨by simp [LinkRecord.enumerate, LinkRecord.goodFrame], by simp [LinkRecord.enumerate, LinkRecord.goodFrame], ?_,
        by simp [LinkRecord.enumerate], by simp [LinkRecord.enumerate], by simp [LinkRecord.enumerate, LinkRecord.goodFrame, hhold],
        htimeout, hlimit, by simp [LinkRecord.enumerate, LinkState.running]⟩
      simp only [LinkRecord.enumerate, LinkRecord.goodFrame, htraining, if_true]
      omega
    · next hfew =>
      refine modLink_moves (linkRecordOk_goodFrame true fun htraining => ?_) rfl
      have hstate : (s.modLink l fun k => k.goodFrame true).linkState l = .training := by
        simpa [State.modLink_linkState, LinkRecord.goodFrame] using htraining
      have hfew : ¬ 4 ≤ ((s.links.get l).goodFrame true).syncRun := by simpa [hstate] using hfew
      omega

theorem takeGoodFrame_moves (l : Link) {f : State → State} (hf : ∀ s, Moves port s (f s)) (s : State) :
    Moves port s (takeGoodFrame l f s) := by
  have hgood : Moves port s (s.modLink l fun k => k.goodFrame false) :=
    modLink_moves (linkRecordOk_goodFrame false fun ht => by simp [LinkRecord.goodFrame, ht]) rfl
  unfold takeGoodFrame
  split
  case h_1 | h_2 => exact .refl
  case h_3 => exact hgood
  all_goals exact after (hf _) hgood

/-- R117: a matched response is of the request on its tag, with as many data bytes as its status calls for. -/
theorem matched_some {s : State} {l : Link} {t : Tag} {round : BitVec 2} {n : Node} {status : Reason} {data : List Byte} {r : Request}
    (h : s.matched l t round n status data = some r) :
    s.request l t = some r ∧ r.sentOnce = true ∧ ((s.arbiters.get l).tags.get t).round = round ∧ r.node = n
      ∧ data.length = r.answerLength status := by
  unfold State.matched at h
  split at h
  · contradiction
  · next x hx =>
    split at h
    · next hm =>
      cases h
      exact ⟨hx, hm⟩
    · contradiction

theorem takeResponse_moves (l : Link) (t : Tag) (round : BitVec 2) (n : Node) (status : Reason) (data : List Byte) (s : State) :
    Moves port s (takeResponse l t round n status data s) := by
  unfold takeResponse
  split
  · exact modLink_moves id rfl
  · next r hm =>
    obtain ⟨hr, -, -, -, hlen⟩ := matched_some hm
    split
    · exact .single (.resent l t r s hr)
    · exact endRequest_moves hr _ _ fun ho => ho ▸ hlen

theorem expireTimer_moves (l : Link) (t : Tag) (s : State) : Moves port s (expireTimer l t s) := by
  unfold expireTimer
  split
  · exact .refl
  · next r hr =>
    have hcounted (f : LinkRecord → LinkRecord) : (s.modLink l f).request l t = some r := hr
    exact chain_ite (chain_ite (after (.single (.resent l t r _ (hcounted _))) (modLink_moves id rfl))
      (after (endRequest_moves (hcounted _) _ _ Reason.noConfusion) (modLink_moves id rfl))) .refl

theorem takeNotice_moves (n : Node) (c : Byte) (a : Word16) (len : Byte) (s : State) : Moves port s (takeNotice n c a len s) := by
  unfold takeNotice
  dsimp only
  split
  · exact .refl
  · have hnoted (c : BitVec 4) (u : State) : Moves port u (u.modNode n fun r => { r with noticeCount := c }) :=
      .single (.noded n _ u (fun _ => ⟨rfl, rfl⟩) id)
    exact after (hnoted _ _) (Moves.of_acts fun _ => Acts.of_touches (forEntries_chain _ markEntry_touches s))

theorem grants_moves (s : State) : Moves port s (grants s) := .of_acts fun _ => grants_acts s

theorem takeReceived_moves (l : Link) (f : Received) (s : State) : Moves port s (takeReceived l f s) := by
  cases f with
  | bad => exact takeBadFrame_moves ..
  | sync => exact after (grants_moves _) (takeSync_moves ..)
  | response => exact after (grants_moves _) (takeGoodFrame_moves l (takeResponse_moves l _ _ _ _ _) s)
  | notice => exact after (grants_moves _) (takeGoodFrame_moves l (takeNotice_moves _ _ _ _) s)
  | hello => exact after (grants_moves _) (takeGoodFrame_moves l (takeHello_moves _) s)

theorem takeLine_moves (l : Link) (bytes : List Byte) (s : State) : Moves port s (takeLine l bytes s) := by
  rcases takeLine_cases l bytes s with ⟨-, h⟩ | ⟨hrun, f, beyond, -, h⟩ <;> rw [h]
  refine after (takeReceived_moves ..) (modLink_moves (fun hok => ?_) rfl)
  obtain ⟨hbad, hfew, hsync, htrain, hdeadline, hhold, htimeout, hlimit, -⟩ := hok
  exact ⟨hbad, hfew, hsync, htrain, hdeadline, hhold, htimeout, hlimit, fun hno => absurd hrun (by simpa [State.linkState] using hno)⟩

/-! ## The millisecond event -/

/-- The open parts are not read by a rule that judges an entry. -/
theorem forSlots_due {f : SlotIx → State → State} {d : EventParts} (hf : ∀ i s, f i { s with due := d } = { f i s with due := d })
    (s : State) : forSlots f { s with due := d } = { forSlots f s with due := d } := by
  unfold forSlots
  induction List.finRange 48 generalizing s with
  | nil => rfl
  | cons i is ih => simp only [List.foldl_cons, hf, ih]

theorem forHosts_due {f : Host → State → State} {d : EventParts} (hf : ∀ h s, f h { s with due := d } = { f h s with due := d })
    (s : State) : forHosts f { s with due := d } = { forHosts f s with due := d } := by
  unfold forHosts
  induction List.finRange 3 generalizing s with
  | nil => rfl
  | cons h hs ih => simp only [List.foldl_cons, hf, ih]

theorem entryEvent_due (d : EventParts) (i : SlotIx) (k : EventKind) (why : Reason) (s : State) :
    entryEvent i k why { s with due := d } = { entryEvent i k why s with due := d } := by
  refine forHosts_due (fun h s => ?_) s
  have hentry : ({ s with due := d } : State).entry i = s.entry i := rfl
  simp only [hentry]
  cases s.entry i with
  | none => rfl
  | some e => dsimp only; split <;> rfl

theorem checkLimits_due (d : EventParts) (s : State) : checkLimits { s with due := d } = { checkLimits s with due := d } := by
  refine forSlots_due (fun i s => ?_) s
  rcases meetLimit_cases i s with ⟨h, hno⟩ | ⟨e, he, hpast, h⟩ <;> rw [h]
  all_goals
    rcases meetLimit_cases i { s with due := d } with ⟨h', hno'⟩ | ⟨e', he', hpast', h'⟩ <;> rw [h']
  · exact absurd hpast' (Bool.not_eq_true _ ▸ hno e' he')
  · exact absurd hpast (Bool.not_eq_true _ ▸ hno' e he)
  · exact entryEvent_due d i _ _ (s.modEntry i fun e => { e with state := .stale })

theorem ageEntries_due (s : State) (d : EventParts) : { ageEntries s with due := d } = ageEntries { s with due := d } :=
  (forSlots_due (fun _ _ => rfl) s).symm

/-- R41: with its stale check taken, a slot holds no entry past its limit; those of other slots are as before. -/
theorem meetLimit_noPast (i j : SlotIx) (s : State) (h : i = j ∨ ∀ e ∈ s.entry j, s.pastLimit e = false) :
    ∀ e ∈ (meetLimit i s).entry j, (meetLimit i s).pastLimit e = false := by
  have hlimit (u : State) (hp : u.periods = s.periods) (hn : u.nodes = s.nodes) (e : Entry) : u.pastLimit e = s.pastLimit e := by
    simp only [State.pastLimit, State.staleLimit, State.effective, State.sendsNotices, hp, hn]
  rcases meetLimit_cases i s with ⟨heq, hno⟩ | ⟨e, he, -, heq⟩ <;> rw [heq]
  · rcases h with rfl | h
    · exact hno
    · exact h
  · have hentry : (entryEvent i .entryStale .none (s.modEntry i fun e => { e with state := .stale })).entry j
        = (s.modEntry i fun e => { e with state := .stale }).entry j := by
      rw [State.entry, entryEvent_slots]; rfl
    rw [hentry]
    intro x hx
    have hsame := hlimit (entryEvent i .entryStale .none (s.modEntry i fun e => { e with state := .stale }))
      (entryEvent_read (g := State.periods) (fun _ _ _ => rfl) i _ _ (s.modEntry i fun e => { e with state := .stale }))
      (entryEvent_read (g := State.nodes) (fun _ _ _ => rfl) i _ _ (s.modEntry i fun e => { e with state := .stale })) x
    rw [hsame]
    rw [State.modEntry_entry] at hx
    split at hx
    · obtain ⟨y, -, rfl⟩ := Option.map_eq_some_iff.1 hx
      simp [State.pastLimit]
    · next hne => exact (h.resolve_left (Ne.symm hne)) x hx

theorem checkLimits_noPast (s : State) : ∀ i, ∀ e ∈ (checkLimits s).entry i, (checkLimits s).pastLimit e = false := by
  suffices h : ∀ (is : List SlotIx) (u : State) (i : SlotIx), (i ∈ is ∨ ∀ e ∈ u.entry i, u.pastLimit e = false) →
      ∀ e ∈ (is.foldl (fun s i => meetLimit i s) u).entry i, (is.foldl (fun s i => meetLimit i s) u).pastLimit e = false from
    fun i => h _ s i (.inl (List.mem_finRange i))
  intro is
  induction is with
  | nil => exact fun u i h => h.resolve_left List.not_mem_nil
  | cons j js ih =>
    intro u i h
    refine ih _ i ?_
    rcases h with h | h
    · rcases List.mem_cons.1 h with rfl | h
      · exact .inr (meetLimit_noPast i i u (.inl rfl))
      · exact .inl h
    · exact .inr (meetLimit_noPast j i u (.inr h))

theorem takeStaleCheck_acts (s : State) : Acts port net s (takeStaleCheck s) := by
  unfold takeStaleCheck
  split
  · rw [checkLimits_due]
    refine after (due_acts _ _ fun hs _ => .inr fun i e he => ?_) (Acts.of_touches (checkLimits_touches s))
    exact checkLimits_noPast s i e he
  · exact .refl

theorem takeTicks_acts (s : State) : Acts port net s (takeTicks s) := by
  unfold takeTicks
  split
  · exact after (grants_acts _) (after (Acts.of_touches (tickClasses_touches _)) (due_acts_of_stale s _ rfl))
  · exact .refl

theorem takeLeases_acts (s : State) : Acts port net s (takeLeases s) := by
  unfold takeLeases
  split
  · exact after (expireClaims_acts _) (due_acts_of_stale s _ rfl)
  · exact .refl

/-- A part of the millisecond event is taken, other than the stale check. -/
theorem due_moves (d : EventParts) (s : State) (hd : d.stale = s.due.stale) : Moves port s { s with due := d } :=
  .of_acts fun _ => due_acts_of_stale s d hd

theorem takeDeadline_moves (l : Link) (s : State) : Moves port s (takeDeadline l s) := by
  unfold takeDeadline trainingDeadline
  refine chain_ite ?_ .refl
  split
  · next h => exact after (departLink_moves l _ _ (.inr rfl) (h.1 ▸ rfl)) (due_moves _ s rfl)
  · exact due_moves _ s rfl

/-- R100, R106: every entry to TRAINING leaves a link's record in order. -/
theorem linkRecordOk_train {k : LinkRecord} (count : Word32) (hok : LinkRecordOk k) : LinkRecordOk (k.train count) := by
  obtain ⟨-, -, -, -, -, -, htimeout, hlimit, -⟩ := hok
  simpa [LinkRecordOk, LinkRecord.train, LinkState.running, hlimit] using htimeout

theorem takeHoldOff_moves (l : Link) (s : State) : Moves port s (takeHoldOff l s) := by
  unfold takeHoldOff holdOffEnd
  refine chain_ite ?_ .refl
  split
  · next hend =>
    have hdown : (s.links.get l).state = .down := hend.1
    have hquiet : (s.linkState l).quiet := by rw [State.linkState, hdown]; exact ⟨by simp, by simp⟩
    refine after (.single (.linked l _ _ (fun hok => ?_) (.inr ⟨hquiet, ?_⟩))) (due_moves _ s rfl)
    rotate_left
    · split
      · exact ⟨by simp [LinkRecord.train], by simp [LinkRecord.train]⟩
      · exact hquiet
    split
    · exact linkRecordOk_train _ hok
    · obtain ⟨hbad, hfew, hsync, htrain, hdeadline, -, htimeout, hlimit, hreceived⟩ := hok
      exact ⟨hbad, hfew, hsync, htrain, hdeadline, by simp, htimeout, hlimit, hreceived⟩
  · exact due_moves _ s rfl

theorem takeSilence_moves (l : Link) (s : State) : Moves port s (takeSilence l s) := by
  unfold takeSilence silenceReached
  refine chain_ite ?_ .refl
  split
  · next h =>
    refine after (departLink_moves l _ _ (.inr rfl) ?_) (due_moves _ s rfl)
    cases hl : s.linkState l <;> simp_all [State.linkState, LinkState.judgesSilence, LinkState.running]
  · exact due_moves _ s rfl

theorem takeLinkParts_moves (l : Link) (s : State) : Moves port s (takeLinkParts l s) :=
  after (takeSilence_moves ..) (after (takeHoldOff_moves ..) (takeDeadline_moves l s))

theorem settle_moves (s : State) : Moves port s (settle s) :=
  after (takeLinkParts_moves 1 _) (after (takeLinkParts_moves 0 _)
    (Moves.of_acts fun _ => after (takeLeases_acts _) (after (takeTicks_acts _) (takeStaleCheck_acts s))))

/-- R29: the parts of the new event are opened; that they are is not seen before they are taken. -/
theorem millisecond_eq (s : State) :
    millisecond s = ((ageEntries { { settle s with due := EventParts.allDue } with timeBase := (settle s).timeBase + 1 }).modLink 0
      LinkRecord.countSilence).modLink 1 LinkRecord.countSilence := by
  unfold millisecond
  generalize settle s = u
  have haged := ageEntries_due { u with timeBase := u.timeBase + 1 } EventParts.allDue
  exact congrArg (fun v => (v.modLink 0 LinkRecord.countSilence).modLink 1 LinkRecord.countSilence) haged

theorem millisecond_moves (s : State) : Moves port s (millisecond s) := by
  have hsilence (u : State) (l : Link) : Moves port u (u.modLink l LinkRecord.countSilence) := modLink_moves id rfl
  rw [millisecond_eq]
  refine after (hsilence _ 1) (after (hsilence _ 0) (after (Moves.of_acts fun net => ?_) (settle_moves s)))
  generalize settle s = v
  have hopened : Acts port net v { v with due := EventParts.allDue } := due_acts v _ fun _ _ => .inl rfl
  have hcounted (u : State) : Acts port net u { u with timeBase := u.timeBase + 1 } :=
    .single (.aside rfl rfl rfl rfl rfl rfl rfl rfl rfl id)
  have haged (u : State) (hu : u.due.stale = true) : Acts port net u (ageEntries u) := .of_touches (ageEntries_touches u hu)
  exact (hopened.trans (hcounted _)).trans (haged _ rfl)

end

end Sys2Proof.Machine

/-!
# The commands, the ports and the rows as chains of changes
-/

namespace Sys2Proof.Machine

set_option Elab.async false

section
variable {port : Scope} {net : Bool}

/-! ## The owning rules of the commands -/

theorem rangesShare_comm (a la b lb : Nat) : rangesShare a la b lb = rangesShare b lb a la := by
  simp [rangesShare, And.comm]

theorem newEntry_length (n : Node) (first : Word16) (len : Nat) (h : Host) (c : RateClass) (st : EntryState) :
    (newEntry n first len h c st).length = len := by simp [newEntry, Entry.length]

theorem newEntry_holderCount_pos (n : Node) (first : Word16) (len : Nat) (h : Host) (c : RateClass) (st : EntryState) :
    1 ≤ (newEntry n first len h c st).holderCount := by
  rw [Entry.holderCount_eq_countP]
  exact List.countP_pos_iff.2 ⟨h, List.mem_finRange h, by simp [newEntry]⟩

/-- R12: the state of a new entry. -/
theorem createdState_spec (s : State) (n : Node) (len : Nat) :
    s.createdState n len ≠ .valid ∧ (s.createdState n len ≠ .suspended → s.presence n = .present) := by
  unfold State.createdState
  split
  · simp
  · next hn =>
    have hn : s.presence n = .present := by simpa using hn
    split <;> simp [hn]

/-- R11: an entry created in a free slot, with a legal range that no entry of the node shares, fits. -/
theorem newEntry_fits {s : State} {i : SlotIx} {n : Node} {first : Word16} {len : Byte} (h : Host) (c : RateClass)
    (hi : s.entry i = none) (hrange : rangeOk first len = true)
    (hapart : s.findEntry (fun e => e.touchedBy n first.toNat len.toNat) = none) :
    s.Fits i (newEntry n first len.toNat h c (s.createdState n len.toNat)) := by
  simp only [rangeOk, decide_eq_true_eq] at hrange
  refine ⟨hi, ?_, ?_, ?_, newEntry_holderCount_pos .., fun j x hx hnode => ?_, rfl, rfl, (createdState_spec ..).1,
    (createdState_spec ..).2⟩
  · simpa only [newEntry_length] using hrange.1
  · simpa only [newEntry_length] using hrange.2.1
  · rw [newEntry_length]
    exact hrange.2.2
  · rw [newEntry_length, rangesShare_comm]
    exact (findEntry_touchedBy_eq_none_iff ..).1 hapart j x hx hnode

theorem createEntry_acts (hnew : port.creates = true) {s : State} {i : SlotIx} {n : Node} {first : Word16} {len : Byte} (h : Host) (c : RateClass)
    (hi : s.entry i = none) (hrange : rangeOk first len = true)
    (hapart : s.findEntry (fun e => e.touchedBy n first.toNat len.toNat) = none) :
    Acts port net s (createEntry i n first len.toNat h c s) := by
  have hput : Acts port net s (s.modSlot i fun sl => { sl with entry := some (newEntry n first len.toNat h c (s.createdState n len.toNat)) }) :=
    .single (.created hnew i _ s (newEntry_fits h c hi hrange hapart))
  unfold createEntry
  dsimp only
  split
  · exact after (Acts.of_touches (queuePoll_touches ..)) hput
  · exact after (notify_acts ..) hput
  all_goals exact hput

theorem cmdDefineEntry_acts (hnew : port.creates = true) (h : Host) (ps : List Byte) (s : State) : Acts port net s (cmdDefineEntry h ps s).state := by
  have hmet {i : SlotIx} {f : Option Holder → Option Holder} (hf : ∀ r, r.isSome = true → (f r).isSome = true) :
      Acts port net s (meetLimit i (s.modEntry i (Entry.modHolder h f))) :=
    Acts.of_touches (rejudged_touches (fun _ _ => Entry.modHolder_keepsPhase (hf _)) fun _ _ => rfl)
  unfold cmdDefineEntry
  split
  · split
    · dsimp only
      split
      · exact .refl
      · next hrange =>
        split
        · split
          · exact hmet (by simp)
          · exact hmet (by simp)
        · split
          · exact .refl
          · next hapart =>
            split
            · exact .refl
            · next i hi =>
              have hfree := ((State.lowestFreeSlot_eq_some_iff _ _).1 hi).1
              dsimp only
              exact after (grants_acts _) (createEntry_acts hnew h _ hfree (by simpa using hrange) (by simpa using hapart))
    · exact .refl
  · exact .refl

theorem cmdLeaveEntry_acts (hnew : port.creates = false) (h : Host) (ps : List Byte) (s : State) : Acts port net s (cmdLeaveEntry h ps s).state := by
  unfold cmdLeaveEntry
  split
  · split
    · exact .refl
    · split
      · exact .refl
      · split
        · exact removeHolder_acts hnew ..
        · exact .refl
  · exact .refl

theorem cmdSetWatch_acts (h : Host) (ps : List Byte) (s : State) : Acts port net s (cmdSetWatch h ps s).state := by
  unfold cmdSetWatch
  dsimp only
  repeat' split
  all_goals first
    | exact Acts.of_touches (after (evaluateWatch_touches ..) (modHolder_touches (by simp [Function.comp_def])))
    | exact .refl

theorem cmdClearWatch_acts (h : Host) (ps : List Byte) (s : State) : Acts port net s (cmdClearWatch h ps s).state := by
  unfold cmdClearWatch
  repeat' split
  all_goals first
    | exact Acts.of_touches (modHolder_touches (by simp [Function.comp_def]))
    | exact .refl

theorem cmdSetNotify_acts (h : Host) (ps : List Byte) (s : State) : Acts port net s (cmdSetNotify h ps s).state := by
  unfold cmdSetNotify
  dsimp only
  repeat' split
  all_goals first
    | exact .single (.recorded h _ s (by exact fun _ => ⟨rfl, rfl, rfl⟩) (by exact fun _ => ⟨rfl, rfl, rfl⟩))
    | exact .refl

theorem cmdSetAlias_acts (h : Host) (ps : List Byte) (s : State) : Acts port net s (cmdSetAlias h ps s).state := by
  unfold cmdSetAlias
  split
  · exact .refl
  · next k w hps =>
    split
    · exact .refl
    · next hfree => exact .single (.aliased h k w ps s hps (by simpa using hfree))

theorem cmdClearAlias_acts (h : Host) (ps : List Byte) (s : State) : Acts port net s (cmdClearAlias h ps s).state := by
  unfold cmdClearAlias
  split
  · split
    · exact .refl
    · split
      · exact .refl
      · exact .single (.unaliased ..)
  · exact .refl

theorem acceptFetch_acts {h : Host} {s : State} {n : Node} (a : Word16) (len : Nat) (hno : s.fetchOpen h = false)
    (hn : s.presence n = .present) :
    Acts port net s (acceptFetch h n a len s) := by
  unfold acceptFetch
  exact after (.single (.fetching _ _ _ hno ⟨rfl, hn⟩)) (.single (.recorded h _ s (fun _ => ⟨rfl, rfl, rfl⟩) fun _ => ⟨rfl, rfl, rfl⟩))

theorem cmdFetch_acts (h : Host) (ps : List Byte) (s : State) : Acts port net s (cmdFetch h ps s).state := by
  unfold cmdFetch
  split
  · split
    · exact .refl
    · dsimp only
      split
      · exact .refl
      · split
        · exact .refl
        · next hno =>
          split
          · exact .refl
          · split
            · exact .refl
            · next hn =>
              split
              · exact .refl
              · dsimp only
                exact after (grants_acts _) (acceptFetch_acts _ _ (by simpa using hno) (by simpa using hn))
  · exact .refl

theorem cmdDrain_acts (h : Host) (ps : List Byte) (s : State) : Acts port net s (cmdDrain h ps s).state := by
  unfold cmdDrain
  dsimp only
  split
  · exact .refl
  · next hno =>
    split
    · exact notify_acts ..
    · next hsome => exact .single (.drained h _ s (by simpa using hno) hsome)

/-- R67: a host that neither holds nor waits joins the wait list; with three hosts there are never more than two of them. -/
theorem claimRecordOk_wait {c : ClaimRecord} {k : Holding} (h : Host) {lease : Byte} (hlease : lease ≠ 0) (hk : c.holder = some k)
    (hother : k.host ≠ h) (hnew : ∀ w ∈ c.waiters, w.host ≠ h) (hok : ClaimRecordOk c) :
    ClaimRecordOk { c with waiters := c.waiters ++ [{ host := h, lease := lease }] } := by
  obtain ⟨-, hnodup, -, hheld, hleases⟩ := hok
  obtain ⟨hklease, hapart⟩ := hheld k hk
  have hall : (k.host :: h :: c.waiters.map Waiter.host).Nodup := by
    simp only [List.nodup_cons, List.mem_cons, List.mem_map, not_or, not_exists, not_and]
    exact ⟨⟨hother, fun w hw => hapart w hw⟩, fun w hw => hnew w hw, hnodup⟩
  have hthree := hall.length_le_card
  simp only [List.length_cons, List.length_map, Fintype.card_fin] at hthree
  refine ⟨?_, ?_, by simp [hk], fun k' hk' => ?_, fun w hw => ?_⟩
  · rw [List.length_append, List.length_singleton]; omega
  · rw [List.map_append, List.map_cons, List.map_nil, ← List.concat_eq_append, List.nodup_concat]
    refine ⟨fun hmem => ?_, hnodup⟩
    obtain ⟨w, hw, hwh⟩ := List.mem_map.1 hmem
    exact hnew w hw hwh
  · obtain rfl : k = k' := by simpa [hk] using hk'
    refine ⟨hklease, fun w hw => ?_⟩
    rcases List.mem_append.1 hw with hw | hw
    · exact hapart w hw
    · rw [List.mem_singleton.1 hw]; exact hother.symm
  · rcases List.mem_append.1 hw with hw | hw
    · exact hleases w hw
    · rw [List.mem_singleton.1 hw]; exact hlease

theorem cmdClaim_acts (h : Host) (ps : List Byte) (s : State) : Acts port net s (cmdClaim h ps s).state := by
  unfold cmdClaim
  split
  · split
    · exact .refl
    · next n hn =>
      split
      · exact .refl
      · next hlease =>
        dsimp only
        split
        · next hfree =>
          refine .single (.claimed n _ s fun hok => claimRecordOk_hold h _ hlease (fun w hw => ?_) hok)
          simp [hok.2.2.1 hfree] at hw
        · next k hk =>
          split
          · exact .refl
          · next hother =>
            split
            · exact .refl
            · next hnew =>
              refine .single (.claimed n _ s fun hok => claimRecordOk_wait h hlease hk hother (fun w hw => ?_) hok)
              simpa using List.findIdx?_eq_none_iff.1 hnew w hw
  · exact .refl

theorem cmdRenew_acts (h : Host) (ps : List Byte) (s : State) : Acts port net s (cmdRenew h ps s).state := by
  unfold cmdRenew
  split
  · split
    · exact .refl
    · next n hn =>
      split
      · exact .refl
      · next hlease =>
        split
        · next hheld =>
          refine .single (.claimed n _ s fun hok => claimRecordOk_hold h _ hlease (fun w hw => ?_) hok)
          obtain ⟨k, hk, hkh⟩ := (Option.any_eq_true ..).1 hheld
          simp only [decide_eq_true_eq] at hkh
          exact hkh ▸ (hok.2.2.2.1 k hk).2 w hw
        · exact .refl
  · exact .refl

theorem cmdUnclaim_acts (h : Host) (ps : List Byte) (s : State) : Acts port net s (cmdUnclaim h ps s).state := by
  unfold cmdUnclaim
  split
  · split
    · exact .refl
    · split
      · exact releaseClaim_acts ..
      · split
        · exact withdrawWait_acts ..
        · exact .refl
  · exact .refl

theorem clearFetch_acts (h : Host) (l : Link) (s : State) : Acts port net s (clearFetch h l s) := by
  unfold clearFetch
  exact after (forTags_chain (fun t s => .single (.lined l _ s (.of_upd rfl rfl fun r => r.unreport_sameWork h)
    (.inr (.of_eq rfl rfl rfl)))) _)
    (.single (.unfetched l (fun f => f.host ≠ h) s))

theorem clearHolders_acts (hnew : port.creates = false) (h : Host) (s : State) : Acts port net s (clearHolders h s) :=
  forEntries_chain _ (removeHolder_acts hnew h) s

theorem cmdClearHost_acts (hnew : port.creates = false) (h : Host) (ps : List Byte) (s : State) : Acts port net s (cmdClearHost h ps s).state := by
  have hparts : Acts port net s (clearFetch h 1 (clearFetch h 0 (clearClaims h (clearWrites h (clearHolders h s))))) :=
    after (clearFetch_acts ..) (after (clearFetch_acts ..) (after (clearClaims_acts ..)
      (after (.single (.clearedWrites ..)) (clearHolders_acts hnew ..))))
  exact hparts.tail (.cleared h _)

theorem cmdSetClassPeriod_acts (h : Host) (ps : List Byte) (s : State) : Acts port net s (cmdSetClassPeriod h ps s).state := by
  unfold cmdSetClassPeriod
  split
  · dsimp only
    split
    · exact .refl
    · split
      · exact .refl
      · next hlegal => exact chain_ite .refl (.single (.retimed _ _ s (by simpa using hlegal)))
  · exact .refl

theorem cmdSetLinkTiming_moves (h : Host) (ps : List Byte) (s : State) : Moves port s (cmdSetLinkTiming h ps s).state := by
  unfold cmdSetLinkTiming
  split
  · split
    · split
      · exact .refl
      · next hrange =>
        refine modLink_moves (fun hok => ?_) rfl
        obtain ⟨hbad, hfew, hsync, htrain, hdeadline, hhold, -, -, hreceived⟩ := hok
        exact ⟨hbad, hfew, hsync, htrain, hdeadline, hhold, fun hz => hrange (.inl hz), Nat.le_of_not_lt fun hl => hrange (.inr hl),
          hreceived⟩
    · exact .refl
  · exact .refl

theorem quiet_of_not_running {st : LinkState} (h : st.running ≠ true) : st.quiet := by
  cases st <;> simp_all [LinkState.running, LinkState.quiet]

theorem cmdLinkStart_moves (h : Host) (ps : List Byte) (s : State) : Moves port s (cmdLinkStart h ps s).state := by
  unfold cmdLinkStart
  split
  · split
    · exact .refl
    · next l hl =>
      split
      · exact .refl
      · next hrun =>
        have hmarked (u : State) (net : Bool) : Acts port net u (u.modArbiter l fun a => { a with nextClass := .write }) :=
          lined_acts l (by exact fun _ => ⟨rfl, rfl⟩) u (.of_eq rfl rfl rfl)
        exact after (Moves.of_acts (hmarked _)) (.single (.linked l (fun k => k.clearCounters.train s.timeBase) s
          (fun hok => linkRecordOk_train _ (k := (s.links.get l).clearCounters) hok)
          (.inr ⟨quiet_of_not_running hrun, by simp [LinkRecord.train, LinkState.quiet]⟩)))
  · exact .refl

theorem cmdLinkStop_moves (h : Host) (ps : List Byte) (s : State) : Moves port s (cmdLinkStop h ps s).state := by
  unfold cmdLinkStop
  split
  · split
    · exact .refl
    · next l hl =>
      dsimp only
      split
      · exact .refl
      · next hdown =>
        refine .single (.linked l _ s (fun hok => ?_) (.inr ⟨hdown ▸ ⟨by simp, by simp⟩, by simp [LinkState.quiet]⟩))
        have hdown : (s.links.get l).state = .down := hdown
        obtain ⟨hbad, -, hsync, -, hdeadline, -, htimeout, hlimit, hreceived⟩ := hok
        have hnone : (s.links.get l).deadline = none := by simpa [hdown] using hdeadline
        exact ⟨hbad, by simp [LinkState.running], hsync, by simp, by simp [hnone], by simp, htimeout, hlimit,
          fun _ => hreceived (by rw [hdown]; rfl)⟩
      all_goals
        next hrun => exact departLink_moves _ _ _ (.inl rfl) (hrun ▸ rfl)
  · exact .refl

theorem cmdPinNode_moves (h : Host) (ps : List Byte) (s : State) : Moves port s (cmdPinNode h ps s).state := by
  unfold cmdPinNode
  split
  · split
    · exact .refl
    · dsimp only
      exact after (grants_moves _) (pinNode_moves ..)
  · exact .refl

theorem cmdUnpinNode_moves (h : Host) (ps : List Byte) (s : State) : Moves port s (cmdUnpinNode h ps s).state := by
  unfold cmdUnpinNode
  split
  · split
    · exact .refl
    · dsimp only
      exact after (grants_moves _) (unpinNode_moves ..)
  · exact .refl

/-- The commands that act on a link record or the Node Directory (R92, R93, R100, R105, R107). -/
def Command.onNet : Command → Bool
  | .setLinkTiming | .linkStart | .linkStop | .pinNode | .unpinNode => true
  | _ => false

/-- R12: the command that may create an entry; the others may free slots (R13, R28). -/
def Command.creates : Command → Bool
  | .defineEntry => true
  | _ => false

/-- The other commands leave the links and the Node Directory alone. -/
theorem owner_acts_of_not_onNet {c : Command} (hnew : port.creates = c.creates) (hc : c.onNet = false) (h : Host) (ps : List Byte) (s : State) :
    Acts port net s (c.owner h ps s).state := by
  cases c with
  | queryEntry =>
    rw [owner_state_of_query (.inl rfl) h ps s]
  | queryNode =>
    rw [owner_state_of_query (.inr (.inl rfl)) h ps s]
  | queryLink =>
    rw [owner_state_of_query (.inr (.inr rfl)) h ps s]
  | defineEntry => exact cmdDefineEntry_acts hnew h ps s
  | leaveEntry => exact cmdLeaveEntry_acts hnew h ps s
  | setWatch => exact cmdSetWatch_acts h ps s
  | clearWatch => exact cmdClearWatch_acts h ps s
  | setNotify => exact cmdSetNotify_acts h ps s
  | setAlias => exact cmdSetAlias_acts h ps s
  | clearAlias => exact cmdClearAlias_acts h ps s
  | fetch => exact cmdFetch_acts h ps s
  | drain => exact cmdDrain_acts h ps s
  | claim => exact cmdClaim_acts h ps s
  | renew => exact cmdRenew_acts h ps s
  | unclaim => exact cmdUnclaim_acts h ps s
  | clearHost => exact cmdClearHost_acts hnew h ps s
  | setClassPeriod => exact cmdSetClassPeriod_acts h ps s
  | setLinkTiming | linkStart | linkStop | pinNode | unpinNode => contradiction

theorem owner_moves (c : Command) (hnew : port.creates = c.creates) (h : Host) (ps : List Byte) (s : State) : Moves port s (c.owner h ps s).state := by
  by_cases hc : c.onNet = false
  · exact .of_acts fun _ => owner_acts_of_not_onNet hnew hc h ps s
  · cases c with
    | setLinkTiming => exact cmdSetLinkTiming_moves h ps s
    | linkStart => exact cmdLinkStart_moves h ps s
    | linkStop => exact cmdLinkStop_moves h ps s
    | pinNode => exact cmdPinNode_moves h ps s
    | unpinNode => exact cmdUnpinNode_moves h ps s
    | _ => contradiction

theorem answer_moves (c : Command) (hnew : port.creates = c.creates) (h : Host) (ps : List Byte) (s : State) : Moves port s (c.answer h ps s).state := by
  rcases answer_cases c h ps s with ⟨-, hr⟩ | ⟨-, -, -, hr⟩ | ⟨-, -, hr⟩ <;> rw [hr]
  · exact .refl
  · exact .refl
  · exact owner_moves c hnew ..

end

section
variable {new net : Bool}

/-! ## The ports -/

/-- A port's own bytes change what the Event Unit, the SET_ALIAS and DRAIN rules leave alone. -/
theorem ported_acts (h : Host) {f : HostState → HostState} (hf : ∀ hs : HostState, hs.Keeps (f hs)) (s : State) :
    Acts ⟨true, new, false⟩ net s (s.modHost h f) := .single (.ported rfl h f s hf)

theorem answerWith_acts (h : Host) (x : BusAnswer) (t : Transaction) (s : State) :
    Acts ⟨true, new, false⟩ net s (s.modHost h (HostState.answerWith x t)) := ported_acts h (by exact fun _ => ⟨rfl, rfl, rfl⟩) s

theorem refuseAddress_acts (h : Host) (s : State) : Acts ⟨true, new, false⟩ net s (refuseAddress h s) := answerWith_acts ..

theorem withResult_acts (h : Host) (a : Byte) (st : Status) (vs : List Byte) (s : State) : Acts ⟨true, new, false⟩ net s (s.withResult h a st vs) :=
  ported_acts h (by exact fun _ => ⟨rfl, rfl, rfl⟩) s

theorem closed_acts (h : Host) (s : State) : Acts ⟨true, new, false⟩ net s (s.modHost h fun hs => { hs with transaction := .idle }) :=
  ported_acts h (by exact fun _ => ⟨rfl, rfl, rfl⟩) s

theorem runCommand_moves {c : Command} (hnew : new = c.creates) (h : Host) (ps : List Byte) (s : State) : Moves ⟨true, new, false⟩ s (runCommand c h ps s) :=
  chain_ite .refl (after (Moves.of_acts fun _ => withResult_acts ..) (after (answer_moves c hnew ..) (settle_moves s)))

theorem State.modHost_modHost (h : Host) (f g : HostState → HostState) (s : State) :
    (s.modHost h f).modHost h g = s.modHost h fun hs => g (f hs) := by
  simp only [State.modHost, upd_upd]

theorem controlReadEnd_acts (h : Host) (s : State) : Acts ⟨true, new, false⟩ net s (controlReadEnd h s) := by
  unfold controlReadEnd
  split
  · next start copy sent ht =>
    cases hc : copy.event with
    | none => exact closed_acts h s
    | some r =>
      by_cases hcover : coversEventArea start sent = true
      · have hremove := (closed_acts (new := new) (net := net) h s).tail (.removed rfl h r _)
        simpa [hc, hcover, State.modHost_modHost] using hremove
      · have hclose := closed_acts (new := new) (net := net) h s
        simpa [hc, hcover] using hclose
  all_goals exact .refl

theorem aliasWriteEnd_acts (h : Host) (s : State) : Acts ⟨true, new, false⟩ net s (aliasWriteEnd h s) := by
  unfold aliasWriteEnd
  split
  · exact after (grants_acts _) (after (takeWrite_acts ..) (closed_acts h s))
  all_goals exact .refl

theorem aliasReadEnd_acts (h : Host) (s : State) : Acts ⟨true, new, false⟩ net s (aliasReadEnd h s) := by
  unfold aliasReadEnd
  split
  · exact ported_acts h (by exact fun _ => ⟨rfl, rfl, rfl⟩) s
  all_goals exact .refl

/-- The command that the end of the open transaction takes (R150). -/
def State.openCommand (s : State) (h : Host) : Option Command :=
  match s.transaction h with
  | .controlWrite (some b) _ => commandAt b
  | _ => none

theorem controlWriteEnd_moves (h : Host) (s : State) (hnew : ∀ c ∈ s.openCommand h, new = c.creates) : Moves ⟨true, new, false⟩ s (controlWriteEnd h s) := by
  have hclosed : Moves ⟨true, new, false⟩ s (s.modHost h fun hs => { hs with transaction := .idle }) := .of_acts fun _ => closed_acts h s
  unfold controlWriteEnd
  split
  · next b bytes ht =>
    dsimp only
    split
    · exact hclosed
    · next c hc => exact after (runCommand_moves (hnew c (by simp [State.openCommand, ht, hc])) ..) hclosed
  · exact hclosed
  all_goals exact .refl

theorem endTransaction_moves (h : Host) (s : State) (hnew : ∀ c ∈ s.openCommand h, new = c.creates) : Moves ⟨true, new, false⟩ s (endTransaction h s) := by
  unfold endTransaction
  split
  · exact .refl
  · exact .of_acts fun _ => closed_acts h s
  · exact controlWriteEnd_moves h s hnew
  · exact .of_acts fun _ => controlReadEnd_acts h s
  · exact .of_acts fun _ => aliasWriteEnd_acts h s
  · exact .of_acts fun _ => aliasReadEnd_acts h s

theorem closeFor_moves (c : Command) (h : Host) (ps : List Byte) (s : State) (hnew : ∀ c ∈ s.openCommand h, new = c.creates) :
    Moves ⟨true, new, false⟩ s (closeFor c h ps s) :=
  chain_ite (Moves.of_acts fun _ => closed_acts h s) (endTransaction_moves h s hnew)

theorem aliasWriteAddress_acts (h : Host) (k : AliasIx) (w : AliasSlot) (s : State) : Acts ⟨true, new, false⟩ net s (aliasWriteAddress h k w s) := by
  unfold aliasWriteAddress
  split
  · next hok =>
    simp only [State.acceptsWrite, Bool.and_eq_true, decide_eq_true_eq] at hok
    obtain ⟨⟨⟨⟨-, hpresent⟩, -⟩, hown⟩, hall⟩ := hok
    exact after (answerWith_acts ..) (.single (.reserved h w.node s hown hall hpresent))
  · exact refuseAddress_acts ..

theorem modReservation_acts (h : Host) (l : Link) {f : WriteRecord → WriteRecord}
    (hf : ∀ r, (f r).origin = r.origin ∧ (f r).state = r.state ∧ (f r).covered = r.covered)
    (hlapse : ∀ r, (f r).node = r.node ∧ (f r).lapse = r.lapse) (s : State) :
    Acts ⟨true, new, false⟩ net s (modReservation h l f s) :=
  .single (.rereserved l (fun r => if r.origin = h then f r else r) s (fun r => by split <;> simp [hf])
    fun r => by split <;> simp [hlapse])

theorem controlReadAddress_acts (h : Host) (s : State) : Acts ⟨true, new, false⟩ net s (controlReadAddress h s) :=
  ported_acts h (by exact fun _ => ⟨rfl, rfl, rfl⟩) s

theorem aliasReadAddress_acts (h : Host) (k : AliasIx) (w : AliasSlot) (s : State) : Acts ⟨true, new, false⟩ net s (aliasReadAddress h k w s) := by
  unfold aliasReadAddress
  exact chain_ite (answerWith_acts ..) (after (ported_acts h (by exact fun _ => ⟨rfl, rfl, rfl⟩) _) (refuseAddress_acts ..))

theorem addressByte_moves (h : Host) (a : BitVec 7) (d : Direction) (s : State) (hnew : ∀ c ∈ s.openCommand h, new = c.creates) : Moves ⟨true, new, false⟩ s (addressByte h a d s) := by
  unfold addressByte
  dsimp only
  split
  · exact after (Moves.of_acts fun _ => answerWith_acts ..) (endTransaction_moves h s hnew)
  · exact after (Moves.of_acts fun _ => controlReadAddress_acts h _) (endTransaction_moves h s hnew)
  · exact after (Moves.of_acts fun _ => aliasWriteAddress_acts ..) (endTransaction_moves h s hnew)
  · exact after (Moves.of_acts fun _ => aliasReadAddress_acts ..) (endTransaction_moves h s hnew)
  · exact after (Moves.of_acts fun _ => refuseAddress_acts ..) (endTransaction_moves h s hnew)

theorem aliasRegister_acts (h : Host) (k : AliasIx) (w : AliasSlot) (b : Byte) (s : State) : Acts ⟨true, new, false⟩ net s (aliasRegister h k w b s) := by
  unfold aliasRegister
  exact chain_ite
    (after (ported_acts h (by exact fun _ => ⟨rfl, rfl, rfl⟩) _) (modReservation_acts h _ (by exact fun _ => ⟨rfl, rfl, rfl⟩)
      (by exact fun _ => ⟨rfl, rfl⟩) s))
    (after (answerWith_acts ..) (dropReservation_acts ..))

theorem registerByte_acts (h : Host) (b : Byte) (s : State) : Acts ⟨true, new, false⟩ net s (registerByte h b s) := by
  unfold registerByte
  split
  · exact ported_acts h (by exact fun _ => ⟨rfl, rfl, rfl⟩) s
  · exact aliasRegister_acts ..
  · exact refuseAddress_acts ..
  all_goals exact .refl

theorem aliasDataByte_acts (h : Host) (b : Byte) (s : State) : Acts ⟨true, new, false⟩ net s (aliasDataByte h b s) := by
  unfold aliasDataByte
  split
  · exact chain_ite (answerWith_acts ..)
      (after (ported_acts h (by exact fun _ => ⟨rfl, rfl, rfl⟩) _) (modReservation_acts h _ (by exact fun _ => ⟨rfl, rfl, rfl⟩)
        (by exact fun _ => ⟨rfl, rfl⟩) s))
  · exact answerWith_acts ..
  · exact .refl
  · exact refuseAddress_acts ..
  all_goals exact .refl

theorem controlDataByte_acts (h : Host) (b : Byte) (s : State) : Acts ⟨true, new, false⟩ net s (controlDataByte h b s) := by
  unfold controlDataByte
  split
  · exact chain_ite (ported_acts h (by exact fun _ => ⟨rfl, rfl, rfl⟩) s) (ported_acts h (by exact fun _ => ⟨rfl, rfl, rfl⟩) s)
  · exact .refl
  · exact refuseAddress_acts ..
  all_goals exact .refl

theorem aliasReadByte_acts (h : Host) (s : State) : Acts ⟨true, new, false⟩ net s (aliasReadByte h s) := by
  unfold aliasReadByte
  split
  · exact ported_acts h (by exact fun _ => ⟨rfl, rfl, rfl⟩) s
  all_goals exact .refl

theorem controlReadByte_acts (h : Host) (s : State) : Acts ⟨true, new, false⟩ net s (controlReadByte h s) := by
  unfold controlReadByte
  split
  · exact ported_acts h (by exact fun _ => ⟨rfl, rfl, rfl⟩) s
  all_goals exact .refl

end

/-! ## The rows of the table -/

/-- Two chains of units, of which the second creates an entry after the first may have freed slots only where DEFINE_ENTRY is answered
after a command that its own closing has taken. -/
def Phases (s t : State) : Prop :=
  ∃ u new new', Moves ⟨true, new, false⟩ s u ∧ Moves ⟨true, new', false⟩ u t ∧ (new = false → new' = true →
    ∃ h ps, t = placeResult h .defineEntry (Command.answer .defineEntry h ps u))

theorem Phases.of_moves {s t : State} (new : Bool) (h : Moves ⟨true, new, false⟩ s t) : Phases s t :=
  ⟨t, new, new, h, .refl, fun h h' => absurd (h.symm.trans h') (by simp)⟩

theorem Phases.of_all {s t : State} (h : ∀ new, Moves ⟨true, new, false⟩ s t) : Phases s t := .of_moves false (h false)

/-- The first chain may be longer. -/
theorem Phases.head {s r t : State} (h : ∀ new, Moves ⟨true, new, false⟩ s r) (hrest : Phases r t) : Phases s t := by
  obtain ⟨u, new, new', hfirst, hsecond, hdefine⟩ := hrest
  exact ⟨u, new, new', (h new).trans hfirst, hsecond, hdefine⟩

/-- The scope of the command that the end of the open transaction takes, if it takes one. -/
theorem exists_new (o : Option Command) : ∃ new : Bool, ∀ c ∈ o, new = c.creates := by
  cases o with
  | none => exact ⟨false, nofun⟩
  | some c => exact ⟨c.creates, by simp⟩

theorem addressByte_phases (h : Host) (a : BitVec 7) (d : Direction) (s : State) : Phases s (addressByte h a d s) := by
  obtain ⟨new, hnew⟩ := exists_new (s.openCommand h)
  exact .of_moves new (addressByte_moves h a d s hnew)

/-- A command row, whose closing may have taken another command. -/
theorem takeCommand_phases (c : Command) (h : Host) (ps : List Byte) (s : State) : Phases s (takeCommand c h ps s) := by
  obtain ⟨new, hnew⟩ := exists_new (s.openCommand h)
  have hclose : Moves ⟨true, new, false⟩ s (closeFor c h ps s) := closeFor_moves c h ps s hnew
  unfold takeCommand runCommand
  split
  · exact .of_moves new hclose
  · refine ⟨settle (closeFor c h ps s), new, c.creates, after (settle_moves _) hclose,
      after (Moves.of_acts fun _ => withResult_acts ..) (answer_moves c rfl ..), fun _ hcreates => ⟨h, ps, ?_⟩⟩
    obtain rfl : c = .defineEntry := by
      unfold Command.creates at hcreates
      split at hcreates
      · rfl
      · cases hcreates
    rfl

/-- Every row but RESET is one or two chains of units. -/
theorem exec_phases (c : Instr) (s : State) : (∃ a b, c = .reset a b) ∨ ∃ t, exec c s = .next t ∧ Phases s t := by
  cases c with
  | reset a b => exact .inl ⟨a, b, rfl⟩
  | millisecondEvent => exact .inr ⟨_, rfl, .of_all fun _ => millisecond_moves s⟩
  | classTick => exact .inr ⟨_, rfl, .of_all fun _ => .of_acts fun _ => takeTicks_acts s⟩
  | staleLimitReached => exact .inr ⟨_, rfl, .of_all fun _ => .of_acts fun _ => takeStaleCheck_acts s⟩
  | leaseExpiry => exact .inr ⟨_, rfl, .of_all fun _ => .of_acts fun _ => takeLeases_acts s⟩
  | trainingDeadline l => exact .inr ⟨_, rfl, .of_all fun _ => takeDeadline_moves l s⟩
  | holdOffEnd l => exact .inr ⟨_, rfl, .of_all fun _ => takeHoldOff_moves l s⟩
  | silenceDetected l => exact .inr ⟨_, rfl, .of_all fun _ => takeSilence_moves l s⟩
  | responseTimerExpiry l t => exact .inr ⟨_, rfl, .of_all fun _ => after (grants_moves _) (expireTimer_moves l t s)⟩
  | frameSent l => exact .inr ⟨_, rfl, .of_all fun _ => .of_acts fun _ => copySent_acts l s⟩
  | badFrame line => exact .inr ⟨_, rfl, .of_all fun _ => takeLine_moves ..⟩
  | syncFrame l => exact .inr ⟨_, rfl, .of_all fun _ => takeLine_moves ..⟩
  | responseFrame => exact .inr ⟨_, rfl, .of_all fun _ => takeLine_moves ..⟩
  | noticeFrame => exact .inr ⟨_, rfl, .of_all fun _ => takeLine_moves ..⟩
  | helloFrame => exact .inr ⟨_, rfl, .of_all fun _ => takeLine_moves ..⟩
  | aliasWriteAddressByte | aliasReadAddressByte | controlWriteAddressByte | controlReadAddressByte | addressNotAcknowledged =>
    exact .inr ⟨_, rfl, addressByte_phases ..⟩
  | registerByte => exact .inr ⟨_, rfl, .of_all fun _ => .of_acts fun _ => registerByte_acts ..⟩
  | aliasWriteDataByte => exact .inr ⟨_, rfl, .of_all fun _ => .of_acts fun _ => aliasDataByte_acts ..⟩
  | controlWriteOtherPosition => exact .inr ⟨_, rfl, .of_all fun _ => .of_acts fun _ => controlDataByte_acts ..⟩
  | aliasReadByte => exact .inr ⟨_, rfl, .of_all fun _ => .of_acts fun _ => aliasReadByte_acts ..⟩
  | aliasWriteEnd => exact .inr ⟨_, rfl, .of_all fun _ => .of_acts fun _ => aliasWriteEnd_acts ..⟩
  | aliasReadEnd => exact .inr ⟨_, rfl, .of_all fun _ => .of_acts fun _ => aliasReadEnd_acts ..⟩
  | controlReadEnd => exact .inr ⟨_, rfl, .of_all fun _ => .of_acts fun _ => controlReadEnd_acts ..⟩
  | controlWriteDataByte => exact .inr ⟨_, rfl, .of_all fun _ => .of_acts fun _ => controlDataByte_acts ..⟩
  | controlReadByte => exact .inr ⟨_, rfl, .of_all fun _ => .of_acts fun _ => controlReadByte_acts ..⟩
  | defineEntry | leaveEntry | queryEntry | setWatch | clearWatch | setNotify | setAlias | clearAlias | fetch | drain | claim
  | renew | unclaim | queryNode | queryLink | clearHost | setClassPeriod | setLinkTiming | linkStart | linkStop | pinNode
  | unpinNode => exact .inr ⟨_, rfl, takeCommand_phases ..⟩

/-- A step is a reset, or chains of units. -/
theorem step_phases {s t : State} (h : step s = .next t) : (∃ a b n p, t = State.resetWith a b n p) ∨ Phases s t := by
  cases hp : s.pending with
  | nil =>
    simp only [step, hp, Host.Outcome.next.injEq] at h
    exact .inr (h ▸ .of_all fun _ => .refl)
  | cons c rest =>
    simp only [step, hp] at h
    rcases exec_phases c { s with pending := rest } with ⟨a, b, rfl⟩ | ⟨u, hu, hphases⟩
    · cases h
      exact .inl ⟨a, b, _, _, rfl⟩
    · obtain rfl : u = t := by simpa [hu] using h
      exact .inr (.head (r := { s with pending := rest }) (fun _ => .of_acts fun _ => .single (.aside rfl rfl rfl rfl rfl rfl rfl rfl rfl id)) hphases)

theorem Acts.keeps {port : Scope} {net : Bool} {P : State → Prop} (hact : ∀ s t, Act port net s t → P s → P t) {s t : State}
    (h : Acts port net s t) (hs : P s) : P t := by
  induction h with
  | refl => exact hs
  | tail _ hlast ih => exact hact _ _ hlast ih

theorem Touches.keeps {P : State → Prop} (htouch : ∀ s t, Touch s t → P s → P t) {s t : State} (h : Touches s t)
    (hs : P s) : P t := by
  induction h with
  | refl => exact hs
  | tail _ hlast ih => exact htouch _ _ hlast ih

theorem Moves.keeps {port : Scope} {P : State → Prop} (hmove : ∀ s t, Move port s t → P s → P t) {s t : State} (h : Moves port s t)
    (hs : P s) : P t := by
  induction h with
  | refl => exact hs
  | tail _ hlast ih => exact hmove _ _ hlast ih

/-- An invariant of nodes and links in accord with the rest is kept by every step if each unit keeps it. -/
theorem step_keeps_of_moves {P : State → Prop} (hreset : ∀ a b n p, P (State.resetWith a b n p))
    (hmove : ∀ {port : Scope} s t, Move port s t → P s → P t) (s t : State) (hs : P s) (h : step s = .next t) : P t := by
  rcases step_phases h with ⟨a, b, n, p, rfl⟩ | ⟨u, new, new', hfirst, hsecond, -⟩
  · exact hreset a b n p
  · exact hsecond.keeps hmove (hfirst.keeps hmove hs)

/-- An invariant that holds after a reset and that each change keeps is kept by every step. -/
theorem step_keeps {P : State → Prop} (hreset : ∀ a b n p, P (State.resetWith a b n p))
    (hact : ∀ {port : Scope} s t, Act port true s t → P s → P t) (s t : State) (hs : P s) (h : step s = .next t) : P t :=
  step_keeps_of_moves hreset (fun _ _ hmove => hmove.toActs.keeps hact) s t hs h

end Sys2Proof.Machine

/-!
# The hosts' records: event queues and window slots (sections 10.2, 10.3 and 8.2)

What a step can do to one host's record, and two invariants of it.
-/

namespace Sys2Proof.Machine

set_option Elab.async false

/-! ## What a step can do to one host's record -/

/-- One change of a host's record, of a part whose control address is `control`. -/
inductive HostState.Change (control : BitVec 7) : HostState → HostState → Prop
  | received (stamp : Word16) (b : EventBody) (hs : HostState) : Change control hs (hs.receive stamp b)
  | kept {hs hs' : HostState} (hevents : hs'.events = hs.events) (haliases : hs'.aliases = hs.aliases) : Change control hs hs'
  | removed (stamp : Word16) (r : EventRecord) (hs : HostState) : Change control hs (hs.removeRead stamp r)
  | cleared (hs : HostState) : Change control hs hs.clearPort.clearEvents
  | aliased (k : AliasIx) (w : AliasSlot) (ps : List Byte) (hs : HostState) (hps : aliasParams ps = some (k, w))
      (hcontrol : w.address ≠ control) (hother : ∀ j, j ≠ k → ∀ x ∈ hs.aliases.get j, x.address ≠ w.address) :
      Change control hs { hs with aliases := upd hs.aliases k fun _ => some w }
  | unaliased (k : AliasIx) (hs : HostState) : Change control hs { hs with aliases := upd hs.aliases k fun _ => none }

abbrev HostState.Changes (control : BitVec 7) : HostState → HostState → Prop := Relation.ReflTransGen (HostState.Change control)

/-- Each host's record goes through such changes, and the control address stays. -/
structure State.HostsChange (s t : State) : Prop where
  strap : t.addrSel = s.addrSel
  hosts : ∀ g, HostState.Changes s.controlAddress (s.hosts.get g) (t.hosts.get g)

namespace State.HostsChange

theorem refl (s : State) : s.HostsChange s := ⟨rfl, fun _ => .refl⟩

theorem trans {s u t : State} (h : s.HostsChange u) (h' : u.HostsChange t) : s.HostsChange t := by
  have hcontrol : u.controlAddress = s.controlAddress := by simp [State.controlAddress, h.strap]
  exact ⟨h'.strap.trans h.strap, fun g => (h.hosts g).trans (hcontrol ▸ h'.hosts g)⟩

theorem of_eq {s t : State} (hstrap : t.addrSel = s.addrSel) (hhosts : t.hosts = s.hosts) : s.HostsChange t :=
  ⟨hstrap, fun _ => hhosts ▸ .refl⟩

/-- What `HostsChange` speaks of. -/
abbrev hostPart (s : State) : Bool × Vector HostState 3 := (s.addrSel, s.hosts)

theorem of_read {s t : State} (h : hostPart t = hostPart s) : s.HostsChange t :=
  of_eq (congrArg Prod.fst h) (congrArg Prod.snd h)

theorem modHost {s : State} {h : Host} {f : HostState → HostState}
    (hf : HostState.Changes s.controlAddress (s.hosts.get h) (f (s.hosts.get h))) : s.HostsChange (s.modHost h f) := by
  refine ⟨rfl, fun g => ?_⟩
  simp only [State.modHost_hosts, get_upd]
  split
  · next hg => exact hg ▸ hf
  · exact .refl

theorem modHost_kept {s : State} {h : Host} {f : HostState → HostState}
    (hf : ∀ hs : HostState, (f hs).events = hs.events ∧ (f hs).aliases = hs.aliases) : s.HostsChange (s.modHost h f) :=
  modHost (.single (.kept (hf _).1 (hf _).2))

theorem notify (h : Host) (b : EventBody) (s : State) : s.HostsChange (notify h b s) := modHost (.single (.received ..))

theorem of_touch {s t : State} (h : Touch s t) : s.HostsChange t := by
  cases h with
  | told h b => exact .notify ..
  | kept i f => exact .of_eq rfl rfl
  | queued i => exact .of_read (queuePoll_read (g := hostPart) (fun _ _ _ => rfl) (fun _ _ _ => rfl) ..)

theorem of_touches {s t : State} (h : Touches s t) : s.HostsChange t := by
  induction h with
  | refl => exact .refl _
  | tail _ hlast ih => exact ih.trans (of_touch hlast)

theorem completeDrain (h : Host) (s : State) : s.HostsChange (completeDrain h s) := by
  unfold Machine.completeDrain
  split
  · exact .refl _
  · split
    · exact .refl _
    · exact (notify ..).trans (modHost_kept fun _ => ⟨rfl, rfl⟩)

theorem finishWrite (l : Link) (r : WriteRecord) (o : Reason) (s : State) : s.HostsChange (finishWrite l r o s) := by
  have htold := of_touches (tellEnding_touches r o s)
  have hcounted : s.HostsChange
      ((if r.covered = true ∧ o ≠ .ok then countDrainFailure r.origin (tellEnding r o s) else tellEnding r o s).modWrites l
        (freeRecord r)) := by
    split
    · exact (htold.trans (modHost_kept (f := fun hs => { hs with drain := hs.drain.map fun d => { d with failed := d.failed + 1 } })
        fun _ => ⟨rfl, rfl⟩)).trans (.of_eq rfl rfl)
    · exact htold.trans (.of_eq rfl rfl)
  rw [finishWrite_eq]
  dsimp only
  split
  · exact hcounted.trans (completeDrain ..)
  · exact hcounted

theorem of_act {port : Scope} {net : Bool} {s t : State} (h : Act port net s t) : s.HostsChange t := by
  cases h with
  | touch h => exact of_touch h
  | aside _ _ _ _ hhosts _ _ _ hstrap => exact .of_eq hstrap hhosts
  | retimed c p => exact HostsChange.trans (u := s.retime c p) (.of_eq rfl rfl) (of_touches (retimed_touches c p s))
  | identified _ n i c => exact HostsChange.trans (u := s.identify n i c) (.of_eq rfl rfl) (of_touches (recordIdentity_touches n i c s))
  | claimed | noded | linked => exact .of_eq rfl rfl
  | recorded h f _ hkeep => exact modHost_kept fun hs => ⟨(hkeep hs).events, (hkeep hs).aliases⟩
  | ported _ h f _ hkeep => exact modHost_kept fun hs => ⟨(hkeep hs).events, (hkeep hs).aliases⟩
  | removed _ h r => exact modHost (.single (.removed ..))
  | cleared h => rw [State.modHost_modHost]; exact modHost (.single (.cleared _))
  | aliased h k w ps _ hps hfree =>
    have hno := mt (s.aliasTaken_eq_true_iff h k w.address).2 (by simp [hfree])
    push Not at hno
    exact modHost (.single (.aliased k w ps _ hps hno.1 fun j hj x hx => hno.2 j hj x hx))
  | unaliased h k => exact modHost (.single (.unaliased ..))
  | created i e => exact .of_eq rfl rfl
  | freed _ i => unfold freeSlot; split <;> exact .of_eq rfl rfl
  | suspended i => exact .of_read (suspendEntry_read (g := hostPart) (fun _ _ _ => rfl) (fun _ _ _ => rfl) ..)
  | emptied _ l => exact .of_read (emptyPollQueue_read (g := hostPart) (fun _ _ _ => rfl) (fun _ _ _ => rfl) ..)
  | reserved h n => exact .of_eq rfl rfl
  | rereserved l f => exact .of_eq rfl rfl
  | dropped h l => exact .of_eq rfl rfl
  | taken h l r seq => exact .of_eq rfl rfl
  | lapsed h l r why seq => exact HostsChange.trans (u := dropReservation h l s) (.of_eq rfl rfl) (finishWrite ..)
  | finished l r o => exact finishWrite ..
  | restated l p st => exact .of_eq rfl rfl
  | clearedWrites h => exact (modHost_kept (s := s) (h := h) (f := fun hs => { hs with drain := none }) fun _ => ⟨rfl, rfl⟩).trans (.of_eq rfl rfl)
  | drained h c =>
    exact (modHost_kept (s := s) (h := h)
      (f := fun hs => { hs with drain := some { counter := c, covered := s.drainCount h, failed := 0 } })
      fun _ => ⟨rfl, rfl⟩).trans (.of_eq rfl rfl)
  | granted l => exact .of_read (grantOne_read (g := hostPart) (fun _ _ _ => rfl) (fun _ _ _ => rfl) (fun _ _ _ => rfl) (fun _ _ _ => rfl) ..)
  | lined l f => exact .of_eq rfl rfl
  | fetching l x => exact .of_eq rfl rfl
  | unfetched l p => exact .of_eq rfl rfl
  | discarded l t r => exact .of_eq rfl rfl
  | pollEnded l t r i e f => exact .of_eq rfl rfl
  | writeEnded l t r w o => exact HostsChange.trans (u := withdraw l t s) (.of_eq rfl rfl) (finishWrite ..)

end State.HostsChange

/-! ## Event queues (R160, R161) -/

theorem eventQueueOk_receive (stamp : Word16) (b : EventBody) {hs : HostState} (h : EventQueueOk hs.events) :
    EventQueueOk (hs.receive stamp b).events := by
  obtain ⟨hlen, hlast, hfull⟩ := h
  have hroom (hno : hs.events.any EventRecord.isOverflow = false) :
      hs.events.length ≤ 15 ∧ ∀ r ∈ hs.events, r.kind ≠ .overflow := by
    have hkinds : ∀ r ∈ hs.events, r.kind ≠ .overflow := by simpa [EventRecord.isOverflow] using hno
    refine ⟨?_, hkinds⟩
    by_contra hlong
    obtain ⟨r, hr, hk⟩ := hfull (by omega)
    exact hkinds r hr hk
  have hkind (r : EventRecord) : (if r.isOverflow then countInto r else r).kind = r.kind := by
    unfold countInto
    split
    · split <;> rfl
    · rfl
  rcases receive_cases stamp b hs with ⟨-, heq⟩ | ⟨-, n, heq⟩ | ⟨hno, hshort, heq⟩ | ⟨hno, hlong, heq⟩ <;> rw [heq]
  · exact ⟨hlen, hlast, hfull⟩
  · refine ⟨by simpa using hlen, ?_, fun h16 => ?_⟩
    · rw [← List.map_dropLast]
      intro x hx
      obtain ⟨r, hr, rfl⟩ := List.mem_map.1 hx
      exact hkind r ▸ hlast r hr
    · obtain ⟨r, hr, hk⟩ := hfull (by simpa using h16)
      exact ⟨_, List.mem_map_of_mem hr, (hkind r).trans hk⟩
  · refine ⟨?_, ?_, fun h16 => ?_⟩
    · rw [List.length_append, List.length_singleton]; omega
    · rw [List.dropLast_concat]; exact (hroom hno).2
    · rw [List.length_append, List.length_singleton] at h16; omega
  · refine ⟨?_, ?_, fun _ => ⟨_, List.mem_append_right _ List.mem_cons_self, rfl⟩⟩
    · rw [List.length_append, List.length_singleton]; exact Nat.succ_le_succ (hroom hno).1
    · rw [List.dropLast_concat]; exact (hroom hno).2

theorem eventQueueOk_nil : EventQueueOk [] := ⟨by simp, by simp, by simp⟩

theorem eventQueueOk_tail {q : List EventRecord} (h : EventQueueOk q) : EventQueueOk q.tail := by
  obtain ⟨hlen, hlast, -⟩ := h
  refine ⟨?_, fun r hr => hlast r ?_, fun h16 => ?_⟩
  · rw [List.length_tail]; omega
  · rw [← List.tail_dropLast] at hr
    exact List.mem_of_mem_tail hr
  · rw [List.length_tail] at h16; omega

theorem eventQueueOk_change {control : BitVec 7} {hs hs' : HostState} (h : HostState.Change control hs hs')
    (hok : EventQueueOk hs.events) : EventQueueOk hs'.events := by
  cases h with
  | received stamp b => exact eventQueueOk_receive stamp b hok
  | kept hevents => rw [hevents]; exact hok
  | removed stamp r =>
    unfold HostState.removeRead
    split
    · exact ⟨by simp, by simp, by simp⟩
    · exact eventQueueOk_tail hok
  | cleared => exact eventQueueOk_nil
  | aliased | unaliased => exact hok

theorem eventQueueOk_changes {control : BitVec 7} {hs hs' : HostState} (h : HostState.Changes control hs hs')
    (hok : EventQueueOk hs.events) : EventQueueOk hs'.events := by
  induction h with
  | refl => exact hok
  | tail _ hlast ih => exact eventQueueOk_change hlast ih

theorem resetWith_hosts (a : Bool) (b : BitVec 2) (n : Nat) (p : List Instr) (h : Host) :
    (State.resetWith a b n p).hosts.get h = HostState.reset := by
  simp [State.resetWith, Vector.get_eq_getElem]

/-- Settles O4: every change of a host's record keeps its queue. -/
theorem eventQueuesKept : Obligations.EventQueuesKept := fun s t hs hstep =>
  step_keeps (P := State.eventsOk) (fun a b n p h => by rw [resetWith_hosts]; exact eventQueueOk_nil)
    (fun _ _ hact hok h => eventQueueOk_changes ((State.HostsChange.of_act hact).hosts h) (hok h)) s t hs hstep

/-! ## Alias slots (R134, R135, R136) -/

/-- A window slot in range, with an address of its own. -/
abbrev HostState.AliasesOk (control : BitVec 7) (hs : HostState) : Prop :=
  ∀ (k : AliasIx), ∀ w ∈ hs.aliases.get k,
    w.address ≠ control ∧ 0x08 ≤ w.address.toNat ∧ w.address.toNat ≤ 0x77
      ∧ 1 ≤ w.size ∧ w.size ≤ 256 ∧ w.base.toNat + w.size - 1 ≤ 65535
      ∧ ∀ j : AliasIx, j ≠ k → ∀ x ∈ hs.aliases.get j, x.address ≠ w.address

/-- R136: what the parameters of SET_ALIAS give is in range. -/
theorem aliasParams_range {ps : List Byte} {k : AliasIx} {w : AliasSlot} (h : aliasParams ps = some (k, w)) :
    0x08 ≤ w.address.toNat ∧ w.address.toNat ≤ 0x77 ∧ 1 ≤ w.size ∧ w.size ≤ 256 ∧ w.base.toNat + w.size - 1 ≤ 65535 := by
  unfold aliasParams at h
  split at h
  · split at h
    · dsimp only at h
      split at h
      · next hrange =>
        obtain ⟨hlow, hhigh, hpos, hsize, hend⟩ := hrange
        cases h
        refine ⟨?_, ?_, hpos, hsize, hend⟩ <;> rw [BitVec.toNat_setWidth] <;> omega
      · contradiction
    · contradiction
  · contradiction

theorem aliasesOk_change {control : BitVec 7} {hs hs' : HostState} (h : HostState.Change control hs hs')
    (hok : hs.AliasesOk control) : hs'.AliasesOk control := by
  cases h with
  | received stamp b =>
    have haliases : (hs.receive stamp b).aliases = hs.aliases := by
      rcases receive_cases stamp b hs with ⟨-, heq⟩ | ⟨-, n, heq⟩ | ⟨-, -, heq⟩ | ⟨-, -, heq⟩ <;> rw [heq]
    simpa only [HostState.AliasesOk, haliases] using hok
  | kept _ haliases => simpa only [HostState.AliasesOk, haliases] using hok
  | removed stamp r =>
    have haliases : (hs.removeRead stamp r).aliases = hs.aliases := by unfold HostState.removeRead; split <;> rfl
    simpa only [HostState.AliasesOk, haliases] using hok
  | cleared => intro k w hw; simp [HostState.clearEvents, HostState.clearPort, Vector.get_eq_getElem] at hw
  | aliased k w ps _ hps hcontrol hother =>
    obtain ⟨hlow, hhigh, hpos, hsize, hend⟩ := aliasParams_range hps
    intro j x hx
    by_cases hj : j = k
    · subst hj
      obtain rfl : w = x := by simpa using hx
      refine ⟨hcontrol, hlow, hhigh, hpos, hsize, hend, fun m hm y hy => hother m hm y ?_⟩
      simpa [hm] using hy
    · obtain ⟨h1, h2, h3, h4, h5, h6, hown⟩ := hok j x (by simpa [hj] using hx)
      refine ⟨h1, h2, h3, h4, h5, h6, fun m hm y hy => ?_⟩
      by_cases hmk : m = k
      · subst hmk
        obtain rfl : w = y := by simpa using hy
        exact (hother j hj x (by simpa [hj] using hx)).symm
      · exact hown m hm y (by simpa [hmk] using hy)
  | unaliased k =>
    have hfewer {m : AliasIx} {y : AliasSlot} (hy : y ∈ (upd hs.aliases k fun _ => none).get m) : y ∈ hs.aliases.get m := by
      by_cases hm : m = k
      · subst hm; simp at hy
      · simpa [hm] using hy
    intro j x hx
    obtain ⟨h1, h2, h3, h4, h5, h6, hown⟩ := hok j x (hfewer hx)
    exact ⟨h1, h2, h3, h4, h5, h6, fun m hm y hy => hown m hm y (hfewer hy)⟩

theorem aliasesOk_changes {control : BitVec 7} {hs hs' : HostState} (h : HostState.Changes control hs hs')
    (hok : hs.AliasesOk control) : hs'.AliasesOk control := by
  induction h with
  | refl => exact hok
  | tail _ hlast ih => exact aliasesOk_change hlast ih

/-- Settles O8: every change of a host's record keeps its window slots, and the control address moves at a reset alone. -/
theorem aliasSlotsKept : Obligations.AliasSlotsKept := fun s t hs hstep => by
  refine step_keeps (P := State.aliasesOk) (fun a b n p h k w hw => ?_) (fun s t hact hok h => ?_) s t hs hstep
  · rw [resetWith_hosts] at hw
    simp [HostState.reset, Vector.get_eq_getElem] at hw
  · have hchange := State.HostsChange.of_act hact
    have hcontrol : t.controlAddress = s.controlAddress := by simp [State.controlAddress, hchange.strap]
    rw [hcontrol]
    exact aliasesOk_changes (hchange.hosts h) (hok h)

end Sys2Proof.Machine

/-!
# Claim records and link records (Chapters 4 and 6)

The claim records, the node records and the link records are each changed by one kind of change alone; the claim and link records'
changes keep them well formed.
-/

namespace Sys2Proof.Machine

set_option Elab.async false

theorem claimsOk_act {port : Scope} {net : Bool} {s t : State} (h : Act port net s t) (hs : s.claimsOk) : t.claimsOk := by
  rcases h.outerRecords with heq | ⟨n, f, rfl, hok⟩ | ⟨-, n, f, heq⟩ | ⟨-, l, f, rfl, -⟩
  · have hclaims : t.claims = s.claims := congrArg Prod.fst heq
    simpa only [State.claimsOk, hclaims] using hs
  · intro m
    rw [State.modClaim_claims, get_upd]
    split
    · exact hok (hs n)
    · exact hs m
  · have hclaims : t.claims = s.claims := congrArg Prod.fst heq
    simpa only [State.claimsOk, hclaims] using hs
  · exact hs

theorem linksOk_act {port : Scope} {net : Bool} {s t : State} (h : Act port net s t) (hs : s.linksOk) : t.linksOk := by
  rcases h.outerRecords with heq | ⟨n, f, rfl, -⟩ | ⟨-, n, f, heq⟩ | ⟨-, l, f, rfl, hok⟩
  · have hlinks : t.links = s.links := congrArg (fun x => x.2.2) heq
    simpa only [State.linksOk, hlinks] using hs
  · exact hs
  · have hlinks : t.links = s.links := congrArg (fun x => x.2.2) heq
    simpa only [State.linksOk, hlinks] using hs
  · intro m
    rw [State.modLink_links, get_upd]
    split
    · exact hok (hs l)
    · exact hs m

theorem resetWith_claims (a : Bool) (b : BitVec 2) (c : Nat) (p : List Instr) (n : Node) :
    (State.resetWith a b c p).claims.get n = { holder := none, waiters := [] } := by
  simp [State.resetWith, Vector.get_eq_getElem]

theorem resetWith_links (a : Bool) (b : BitVec 2) (c : Nat) (p : List Instr) (l : Link) :
    (State.resetWith a b c p).links.get l = LinkRecord.reset := by
  simp [State.resetWith, Vector.get_eq_getElem]

theorem resetWith_claimsOk (a : Bool) (b : BitVec 2) (c : Nat) (p : List Instr) : (State.resetWith a b c p).claimsOk := fun n => by
  rw [resetWith_claims]
  simp [ClaimRecordOk]

theorem resetWith_linksOk (a : Bool) (b : BitVec 2) (c : Nat) (p : List Instr) : (State.resetWith a b c p).linksOk := fun l => by
  rw [resetWith_links]
  decide

/-- Settles O5: a claim record changes by CLAIM, RENEW, release, expiry and withdrawal alone, and each keeps it well formed. -/
theorem claimRecordsKept : Obligations.ClaimRecordsKept :=
  step_keeps (P := State.claimsOk) resetWith_claimsOk fun _ _ => claimsOk_act

/-- Settles O11: each rule of a link controller leaves its record in order; the eighth bad frame and the fourth SYNC move on the
link's state in the same change. -/
theorem linkRecordsKept : Obligations.LinkRecordsKept :=
  step_keeps (P := State.linksOk) resetWith_linksOk fun _ _ => linksOk_act

end Sys2Proof.Machine

/-!
# The write queues' limits, the OUTSTANDING records, and the DRAINs (Chapter 3)
-/

namespace Sys2Proof.Machine

set_option Elab.async false

/-! ## What a change does to the write queues -/

/-- The change leaves the write queues. -/
theorem Touch.writeQueues {s t : State} (h : Touch s t) : t.writeQueues = s.writeQueues := by
  cases h with
  | told | kept => rfl
  | queued => exact queuePoll_read (g := State.writeQueues) (fun _ _ _ => rfl) (fun _ _ _ => rfl) ..

theorem Touches.writeQueues {s t : State} (h : Touches s t) : t.writeQueues = s.writeQueues := by
  induction h with
  | refl => rfl
  | tail _ hlast ih => exact hlast.writeQueues.trans ih

theorem recordIdentity_writeQueues (n : Node) (i : Identity) (c : BitVec 4) (s : State) :
    (recordIdentity n i c s).writeQueues = s.writeQueues := (recordIdentity_touches n i c s).writeQueues

theorem retimed_writeQueues (c : Fin 4) (p : Word16) (s : State) :
    (checkLimits { s with periods := upd s.periods c fun _ => p }).writeQueues = s.writeQueues := (retimed_touches c p s).writeQueues

theorem suspendEntry_writeQueues (i : SlotIx) (s : State) : (suspendEntry i s).writeQueues = s.writeQueues :=
  suspendEntry_read (fun _ _ _ => rfl) (fun _ _ _ => rfl) ..

theorem emptyPollQueue_writeQueues (l : Link) (s : State) : (emptyPollQueue l s).writeQueues = s.writeQueues :=
  emptyPollQueue_read (fun _ _ _ => rfl) (fun _ _ _ => rfl) ..

theorem freeSlot_writeQueues (i : SlotIx) (s : State) : (freeSlot i s).writeQueues = s.writeQueues := by
  unfold freeSlot; split <;> rfl

/-! ## What one grant is (section 7.2) -/

/-- One grant on link `l`: nothing, or one of the four kinds of work, or an item of a slot without an entry is dropped. -/
inductive Grant (l : Link) (s : State) : State → Prop
  | none : Grant l s s
  | write (t : Tag) (r : WriteRecord) (hfree : (s.arbiters.get l).lowestFree = some t) (hup : s.linkState l = .up)
      (hr : (s.writeQueues.get l).offered = some r) :
      Grant l s (grantTag l t .write (newRequest .write r.node r.address r.data.length) (sendWrite l r s))
  | ident (t : Tag) (n : Node) (rest : List Node) (hfree : (s.arbiters.get l).lowestFree = some t)
      (hlink : s.linkState l = .up ∨ s.linkState l = .enumerating) (hidents : (s.arbiters.get l).idents = n :: rest) :
      Grant l s (grantTag l t .read (newRequest .ident n 0 8) (s.modArbiter l fun a => { a with idents := rest }))
  | fetch (t : Tag) (f : FetchItem) (rest : List FetchItem) (hfree : (s.arbiters.get l).lowestFree = some t)
      (hup : s.linkState l = .up) (hidents : (s.arbiters.get l).idents = []) (hfetches : (s.arbiters.get l).fetches = f :: rest) :
      Grant l s (grantTag l t .read (newRequest (.fetch f.host f.ticket f.reported) f.node f.address f.length)
        (s.modArbiter l fun a => { a with fetches := rest }))
  | poll (t : Tag) (item : PollItem) (rest : List PollItem) (e : Entry) (hfree : (s.arbiters.get l).lowestFree = some t)
      (hup : s.linkState l = .up) (hidents : (s.arbiters.get l).idents = []) (hfetches : (s.arbiters.get l).fetches = [])
      (hpolls : s.pollQueues.get l = item :: rest) (he : s.entry item.slot = some e) :
      Grant l s (grantTag l t .read (newRequest (.poll item.slot item.generation e.epoch) e.node e.first e.length)
        ((s.modPolls l fun _ => rest).modEntry item.slot fun e => { e with phase := .inFlight }))
  | dropped (item : PollItem) (rest : List PollItem) (hpolls : s.pollQueues.get l = item :: rest)
      (he : s.entry item.slot = .none) : Grant l s (s.modPolls l fun _ => rest)

/-- R113 to R115: what the read class is served. -/
theorem serveRead_grant {l : Link} {t : Tag} {s : State} (hfree : (s.arbiters.get l).lowestFree = some t)
    (hread : s.readEligible l = true) : Grant l s (serveRead l t s) := by
  have hlink : s.linkState l = .up ∨ (s.linkState l = .enumerating ∧ (s.arbiters.get l).idents ≠ []) := by
    cases hl : s.linkState l <;> simp_all [State.readEligible]
  unfold serveRead
  split
  · next n rest hidents => exact .ident t n rest hfree (hlink.imp_right And.left) hidents
  · next hidents =>
    have hup : s.linkState l = .up := hlink.resolve_right fun h => h.2 hidents
    split
    · next f rest hfetches => exact .fetch t f rest hfree hup hidents hfetches
    · next hfetches =>
      unfold servePoll
      split
      · exact .none
      · next item rest hpolls =>
        dsimp only
        cases he : s.entry item.slot with
        | none =>
          have he' : (s.modPolls l fun _ => rest).entry item.slot = none := he
          simp only [he']
          exact .dropped item rest hpolls he
        | some e =>
          have he' : (s.modPolls l fun _ => rest).entry item.slot = some e := he
          simp only [he']
          exact .poll t item rest e hfree hup hidents hfetches hpolls he

theorem grantOne_grant (l : Link) (s : State) : Grant l s (grantOne l s) := by
  rcases grantOne_cases l s with h | ⟨t, hfree, ⟨hwrite, h⟩ | ⟨hread, h⟩⟩ <;> rw [h]
  · exact .none
  · obtain ⟨hup, hoffered⟩ : s.linkState l = .up ∧ (s.writeQueues.get l).offered.isSome = true := by
      simpa [State.writeEligible] using hwrite
    obtain ⟨r, hr⟩ := Option.isSome_iff_exists.1 hoffered
    simp only [serveWrite, hr]
    exact .write t r hfree hup hr
  · exact serveRead_grant hfree hread

/-- R54: a grant changes the write queues just where it serves the write class. -/
theorem Grant.writeQueues {l : Link} {s u : State} (h : Grant l s u) :
    u.writeQueues = s.writeQueues
    ∨ ∃ r, (s.writeQueues.get l).offered = some r ∧ u.writeQueues = (sendWrite l r s).writeQueues := by
  cases h with
  | write t r _ _ hr => exact .inr ⟨r, hr, rfl⟩
  | _ => exact .inl rfl

/-! ## What host clearing and DRAIN do to a queue -/

/-- R63 on one queue. -/
def WriteQueue.clear (h : Host) (q : WriteQueue) : WriteQueue :=
  { q with
    order := (q.order.filter fun r => !clearable h r).map
      (fun r => if r.origin = h then { r with reported := false, covered := false } else r) }

/-- R61 on one queue. -/
def WriteQueue.cover (h : Host) (q : WriteQueue) : WriteQueue :=
  { q with order := q.order.map (fun r => if drainCovers h r then { r with covered := true } else r) }

theorem clearWrites_writeQueues (h : Host) (s : State) (l : Link) :
    (clearWrites h s).writeQueues.get l = (s.writeQueues.get l).clear h := by
  simp only [clearWrites, State.modHost_writeQueues, State.modWrites_writeQueues, get_upd]
  fin_cases l <;> rfl

theorem markCovered_writeQueues (h : Host) (s : State) (l : Link) :
    (markCovered h s).writeQueues.get l = (s.writeQueues.get l).cover h := by
  simp only [markCovered, State.modWrites_writeQueues, get_upd]
  fin_cases l <;> rfl

/-! ## The limits (R46, R48) -/

/-- The origins of the records of a queue, RESERVED ones first. -/
def WriteQueue.origins (q : WriteQueue) : List Host := q.reserved.map WriteRecord.origin ++ q.order.map WriteRecord.origin

/-- R46 for one queue. -/
abbrev WriteQueue.LimitsOk (q : WriteQueue) : Prop := q.count ≤ 16 ∧ ∀ h : Host, q.countOf h ≤ 6

theorem WriteQueue.count_eq (q : WriteQueue) : q.count = q.origins.length := by simp [WriteQueue.count, WriteQueue.origins]

theorem WriteQueue.countOf_eq (q : WriteQueue) (h : Host) : q.countOf h = q.origins.count h := by
  simp only [WriteQueue.countOf, WriteQueue.origins, List.count, List.countP_append, List.countP_map,
    ← List.countP_eq_length_filter, Function.comp_def, beq_eq_decide]

/-- A queue whose records' origins are among another's has no more of any. -/
theorem WriteQueue.limitsOk_of_subperm {q q' : WriteQueue} (h : q'.origins.Subperm q.origins) (hq : q.LimitsOk) : q'.LimitsOk := by
  rw [WriteQueue.LimitsOk] at hq ⊢
  simp only [WriteQueue.count_eq, WriteQueue.countOf_eq] at hq ⊢
  exact ⟨h.length_le.trans hq.1, fun x => (h.count_le x).trans (hq.2 x)⟩

theorem WriteQueue.limitsOk_of_sublist {q q' : WriteQueue} (hreserved : q'.reserved.Sublist q.reserved)
    (horder : q'.order.Sublist q.order) (hq : q.LimitsOk) : q'.LimitsOk :=
  limitsOk_of_subperm ((hreserved.map _).append (horder.map _)).subperm hq

theorem map_eq_map_map {α β : Type} (f : α → β) (g : α → α) (hg : ∀ x, f (g x) = f x) (xs : List α) :
    (xs.map g).map f = xs.map f := by
  simp [List.map_map, Function.comp_def, hg]

theorem map_replace_of_eq {α β : Type} [BEq α] [LawfulBEq α] (f : α → β) {a b : α} (hab : f b = f a) (xs : List α) :
    (xs.replace a b).map f = xs.map f := by
  induction xs with
  | nil => rfl
  | cons x xs ih =>
    rw [List.replace_cons]
    split
    · next h => simp [beq_iff_eq.1 h, hab]
    · simp [ih]

theorem writeQueuesOk_modWrites {s : State} {l : Link} {f : WriteQueue → WriteQueue}
    (hf : (s.writeQueues.get l).LimitsOk → (f (s.writeQueues.get l)).LimitsOk) (hs : s.writeQueuesOk) :
    (s.modWrites l f).writeQueuesOk := by
  intro m
  rw [State.modWrites_writeQueues, get_upd]
  split
  · exact hf (hs l)
  · exact hs m

theorem writeQueuesOk_of_eq {s t : State} (h : t.writeQueues = s.writeQueues) (hs : s.writeQueuesOk) : t.writeQueuesOk := by
  simpa only [State.writeQueuesOk, h] using hs

theorem WriteQueue.limitsOk_map {q : WriteQueue} (f g : WriteRecord → WriteRecord) (hf : ∀ r, (f r).origin = r.origin)
    (hg : ∀ r, (g r).origin = r.origin) (hq : q.LimitsOk) :
    WriteQueue.LimitsOk { reserved := q.reserved.map f, order := q.order.map g } :=
  limitsOk_of_subperm (q := q)
    (by simp only [WriteQueue.origins, map_eq_map_map _ _ hf, map_eq_map_map _ _ hg]; exact List.Subperm.refl _) hq

theorem dropReservation_writeQueuesOk (h : Host) (l : Link) {s : State} (hs : s.writeQueuesOk) :
    (dropReservation h l s).writeQueuesOk :=
  writeQueuesOk_modWrites (WriteQueue.limitsOk_of_sublist List.filter_sublist (List.Sublist.refl _)) hs

theorem finishWrite_writeQueuesOk (l : Link) (r : WriteRecord) (o : Reason) {s : State} (hs : s.writeQueuesOk) :
    (finishWrite l r o s).writeQueuesOk :=
  writeQueuesOk_of_eq (finishWrite_writeQueues l r o s)
    (writeQueuesOk_modWrites (WriteQueue.limitsOk_of_sublist (List.Sublist.refl _) List.erase_sublist) hs)

theorem State.reservation_mem {s : State} {h : Host} {l : Link} {r : WriteRecord} (hr : s.reservation h l = some r) :
    r ∈ (s.writeQueues.get l).reserved ∧ r.origin = h := by
  unfold State.reservation at hr
  exact ⟨List.mem_of_find?_eq_some hr, by simpa using List.find?_some hr⟩

/-- R51: a reservation that is taken is one record as before. -/
theorem WriteQueue.limitsOk_take {q : WriteQueue} {h : Host} {r x : WriteRecord} (hr : r ∈ q.reserved) (ho : r.origin = h)
    (hx : x.origin = h) (hq : q.LimitsOk) :
    WriteQueue.LimitsOk { reserved := q.reserved.filter fun r => r.origin ≠ h, order := q.order ++ [x] } := by
  refine limitsOk_of_subperm (q := q) (List.subperm_iff_count.2 fun g => ?_) hq
  simp only [WriteQueue.origins, List.count_append, List.map_append, List.map_cons, List.map_nil, hx]
  have hmem : h ∈ q.reserved.map WriteRecord.origin := ho ▸ List.mem_map_of_mem hr
  have hfewer : ((q.reserved.filter fun r => r.origin ≠ h).map WriteRecord.origin).count g ≤ (q.reserved.map WriteRecord.origin).count g :=
    (List.filter_sublist.map _).count_le g
  by_cases hg : g = h
  · subst hg
    have hnone : ((q.reserved.filter fun r => r.origin ≠ g).map WriteRecord.origin).count g = 0 := by
      rw [List.count_eq_zero]
      simp
    have hone : 1 ≤ (q.reserved.map WriteRecord.origin).count g := List.one_le_count_iff.2 hmem
    simp only [hnone, List.count_singleton_self]
    omega
  · simp only [List.count_singleton, beq_iff_eq, Ne.symm hg, if_false]
    omega

theorem writeQueuesOk_act {port : Scope} {net : Bool} {s t : State} (h : Act port net s t) (hs : s.writeQueuesOk) : t.writeQueuesOk := by
  cases h with
  | touch h => exact writeQueuesOk_of_eq h.writeQueues hs
  | aside _ _ hwrites => exact writeQueuesOk_of_eq hwrites hs
  | retimed => exact writeQueuesOk_of_eq (retimed_writeQueues ..) hs
  | identified => exact writeQueuesOk_of_eq (recordIdentity_writeQueues ..) hs
  | suspended => exact writeQueuesOk_of_eq (suspendEntry_writeQueues ..) hs
  | emptied => exact writeQueuesOk_of_eq (emptyPollQueue_writeQueues ..) hs
  | freed => exact writeQueuesOk_of_eq (freeSlot_writeQueues ..) hs
  | reserved h n _ hown hall =>
    refine writeQueuesOk_modWrites (fun hq => ?_) hs
    obtain ⟨-, heach⟩ := hq
    simp only [WriteQueue.LimitsOk, WriteQueue.count, WriteQueue.countOf] at heach hown hall ⊢
    refine ⟨by rw [List.length_append, List.length_singleton]; omega, fun g => ?_⟩
    rw [List.filter_append, List.length_append, List.filter_singleton]
    by_cases hg : h = g
    · subst hg; simp [reservationOf]; omega
    · simpa [reservationOf, hg] using heach g
  | rereserved l f _ hf =>
    refine writeQueuesOk_modWrites (fun hq => ?_) hs
    simpa using WriteQueue.limitsOk_map f id (fun r => (hf r).1) (fun _ => rfl) hq
  | dropped h l => exact dropReservation_writeQueuesOk h l hs
  | taken h l r seq _ hr =>
    obtain ⟨hmem, ho⟩ := State.reservation_mem hr
    have htake : ((dropReservation h l s).modWrites l fun q =>
        { q with order := q.order ++ [{ r with seq := some seq, state := .queued }] }) = s.modWrites l fun q =>
        { reserved := q.reserved.filter fun r => r.origin ≠ h, order := q.order ++ [{ r with seq := some seq, state := .queued }] } := by
      simp only [dropReservation, State.modWrites, upd_upd]
    rw [htake]
    exact writeQueuesOk_modWrites (WriteQueue.limitsOk_take hmem ho ho) hs
  | lapsed h l r why seq => exact finishWrite_writeQueuesOk _ _ _ (dropReservation_writeQueuesOk h l hs)
  | finished l r o => exact finishWrite_writeQueuesOk _ _ _ hs
  | restated l p st =>
    refine writeQueuesOk_modWrites (fun hq => ?_) hs
    simpa using WriteQueue.limitsOk_map id _ (fun _ => rfl) (fun r => by split <;> rfl) hq
  | clearedWrites h =>
    intro l
    rw [clearWrites_writeQueues]
    have hkept : WriteQueue.LimitsOk { s.writeQueues.get l with order := (s.writeQueues.get l).order.filter fun r => !clearable h r } :=
      WriteQueue.limitsOk_of_sublist (q := s.writeQueues.get l) (List.Sublist.refl _) List.filter_sublist (hs l)
    simpa [WriteQueue.clear] using WriteQueue.limitsOk_map id _ (fun _ => rfl) (fun r => by split <;> rfl) hkept
  | drained h c =>
    intro l
    rw [State.modHost_writeQueues, markCovered_writeQueues]
    simpa [WriteQueue.cover] using WriteQueue.limitsOk_map id _ (fun _ => rfl) (fun r => by split <;> rfl) (hs l)
  | granted l =>
    rcases (grantOne_grant l s).writeQueues with heq | ⟨r, -, heq⟩
    · exact writeQueuesOk_of_eq heq hs
    · refine writeQueuesOk_of_eq heq (writeQueuesOk_modWrites (fun hq => WriteQueue.limitsOk_of_subperm ?_ hq) hs)
      simp only [WriteQueue.origins]
      rw [map_replace_of_eq (a := r) (b := { r with state := .outstanding }) WriteRecord.origin rfl]
  | writeEnded l g r w o => exact finishWrite_writeQueuesOk _ _ _ (writeQueuesOk_of_eq rfl hs)
  | _ => exact writeQueuesOk_of_eq rfl hs

end Sys2Proof.Machine

/-!
# Requests in flight, by their tags (sections 7.1 to 7.3)
-/

namespace Sys2Proof.Machine

set_option Elab.async false

/-! ## Counting over the tags -/

/-- Two selections of tags that differ at most in one tag. -/
theorem countP_tags_of_ne {p q : Tag → Bool} (t : Tag) (h : ∀ u, u ≠ t → q u = p u) :
    (List.finRange 8).countP q + (p t).toNat = (List.finRange 8).countP p + (q t).toNat := by
  have hperm : (List.finRange 8).Perm (t :: (List.finRange 8).erase t) := List.perm_cons_erase (List.mem_finRange t)
  have hrest : ((List.finRange 8).erase t).countP q = ((List.finRange 8).erase t).countP p :=
    List.countP_congr fun u hu => by rw [h u ((List.nodup_finRange 8).mem_erase_iff.1 hu).1]
  rw [hperm.countP_eq q, hperm.countP_eq p, List.countP_cons, List.countP_cons, hrest]
  cases p t <;> cases q t <;> simp

/-- The number of requests in flight on link `l` that `p` accepts. -/
def State.inFlight (s : State) (p : Request → Bool) (l : Link) : Nat :=
  ((List.finRange 8).filter fun t => (s.request l t).any p).length

theorem State.inFlight_eq_countP (s : State) (p : Request → Bool) (l : Link) :
    s.inFlight p l = (List.finRange 8).countP fun t => (s.request l t).any p := List.countP_eq_length_filter.symm

theorem State.inFlight_congr {s u : State} {p q : Request → Bool} {l : Link}
    (h : ∀ t, (u.request l t).any q = (s.request l t).any p) : u.inFlight q l = s.inFlight p l := by
  simp only [State.inFlight, h]

/-- No request that `p` accepts is in flight just if there are 0 of them. -/
theorem State.inFlight_pos {s : State} {p : Request → Bool} {l : Link} {t : Tag} {r : Request} (hr : s.request l t = some r)
    (hp : p r = true) : 1 ≤ s.inFlight p l := by
  rw [State.inFlight_eq_countP, Nat.one_le_iff_ne_zero, Ne, List.countP_eq_zero]
  intro h
  exact h t (List.mem_finRange t) (by simp [hr, hp])

theorem State.exists_of_inFlight {s : State} {p : Request → Bool} {l : Link} (h : s.inFlight p l ≠ 0) :
    ∃ t, ∃ r, s.request l t = some r ∧ p r = true := by
  rw [State.inFlight_eq_countP, Ne, List.countP_eq_zero] at h
  simpa [Option.any_eq_true] using h

/-- The request on one tag changes. -/
theorem State.inFlight_of_ne {s u : State} {p : Request → Bool} {l : Link} (t : Tag)
    (h : ∀ v, v ≠ t → u.request l v = s.request l v) :
    u.inFlight p l + ((s.request l t).any p).toNat = s.inFlight p l + ((u.request l t).any p).toNat := by
  rw [State.inFlight_eq_countP, State.inFlight_eq_countP]
  exact countP_tags_of_ne (p := fun v => (s.request l v).any p) t fun v hv => by rw [h v hv]

/-! ## What granting and withdrawing do -/

theorem withdraw_request (l : Link) (t : Tag) (s : State) (m : Link) (u : Tag) :
    (withdraw l t s).request m u = if m = l ∧ u = t then none else s.request m u := by
  simp only [withdraw, State.request, State.modArbiter_arbiters, get_upd]
  by_cases hm : m = l
  · subst hm
    simp only [if_true, true_and, Arbiter.modTag, get_upd]
    split <;> rfl
  · simp [hm]

theorem grantTag_request (l : Link) (t : Tag) (c : RequestClass) (r : Request) (s : State) (m : Link) (u : Tag) :
    (grantTag l t c r s).request m u = if m = l ∧ u = t then some r else s.request m u := by
  simp only [grantTag, State.request, State.modArbiter_arbiters, get_upd]
  by_cases hm : m = l
  · subst hm
    simp only [if_true, true_and, Arbiter.modTag, get_upd]
    split <;> rfl
  · simp [hm]

/-- R118: with its tag freed, a request is one fewer in flight. -/
theorem withdraw_inFlight {l : Link} {t : Tag} {r : Request} {s : State} (hr : s.request l t = some r) (p : Request → Bool)
    (m : Link) : (withdraw l t s).inFlight p m + (if m = l then (p r).toNat else 0) = s.inFlight p m := by
  by_cases hm : m = l
  · subst hm
    have h := State.inFlight_of_ne (p := p) (l := m) (s := s) (u := withdraw m t s) t fun v hv => by
      simp [withdraw_request, hv]
    simpa [withdraw_request, hr] using h
  · simp only [hm, if_false, Nat.add_zero]
    exact State.inFlight_congr fun u => by simp [withdraw_request, hm]

/-- R111: a tag granted to a request is one more in flight. -/
theorem grantTag_inFlight {l : Link} {t : Tag} {s : State} (hfree : s.request l t = none) (c : RequestClass) (r : Request)
    (p : Request → Bool) (m : Link) :
    (grantTag l t c r s).inFlight p m = s.inFlight p m + (if m = l then (p r).toNat else 0) := by
  by_cases hm : m = l
  · subst hm
    have h := State.inFlight_of_ne (p := p) (l := m) (s := s) (u := grantTag m t c r s) t fun v hv => by
      simp [grantTag_request, hv]
    simpa [grantTag_request, hfree] using h
  · simp only [hm, if_false, Nat.add_zero]
    exact State.inFlight_congr fun u => by simp [grantTag_request, hm]

/-- The same requests in flight. -/
theorem State.inFlight_of_arbiters {s u : State} (h : u.arbiters = s.arbiters) (p : Request → Bool) (l : Link) :
    u.inFlight p l = s.inFlight p l := State.inFlight_congr fun t => by simp only [State.request, h]

/-- Work that stays the same is counted the same. -/
theorem inFlight_sameWork {l : Link} {f : Arbiter → Arbiter} {s : State} (hf : (s.arbiters.get l).SameWork (f (s.arbiters.get l)))
    {p : Request → Bool} (hp : ∀ r r' : Request, r.SameWork r' → p r' = p r) (m : Link) :
    (s.modArbiter l f).inFlight p m = s.inFlight p m := by
  refine State.inFlight_congr fun t => ?_
  rw [State.modArbiter_request]
  split
  · next hm =>
    subst hm
    have h := hf.request t
    simp only [State.request]
    generalize ((s.arbiters.get m).tags.get t).request = x, ((f (s.arbiters.get m)).tags.get t).request = y at h ⊢
    cases h with
    | none => rfl
    | some h => exact hp _ _ h
  · rfl

/-- What waits for a tag is no request in flight. -/
theorem modArbiter_request_of_tags {l : Link} {f : Arbiter → Arbiter} (hf : ∀ a, (f a).tags = a.tags) (s : State) (m : Link)
    (t : Tag) : (s.modArbiter l f).request m t = s.request m t := by
  rw [State.modArbiter_request]
  split
  · next hm => rw [hm, hf]; rfl
  · rfl

theorem inFlight_of_tags {l : Link} {f : Arbiter → Arbiter} (hf : ∀ a, (f a).tags = a.tags) (s : State) (p : Request → Bool)
    (m : Link) : (s.modArbiter l f).inFlight p m = s.inFlight p m :=
  State.inFlight_congr fun t => by rw [modArbiter_request_of_tags hf]

/-! ## Rules that leave the arbiters -/

theorem Touch.arbiters {s t : State} (h : Touch s t) : t.arbiters = s.arbiters := by
  cases h with
  | told | kept => rfl
  | queued => exact queuePoll_read (g := State.arbiters) (fun _ _ _ => rfl) (fun _ _ _ => rfl) ..

theorem Touches.arbiters {s t : State} (h : Touches s t) : t.arbiters = s.arbiters := by
  induction h with
  | refl => rfl
  | tail _ hlast ih => exact hlast.arbiters.trans ih

theorem recordIdentity_arbiters (n : Node) (i : Identity) (c : BitVec 4) (s : State) :
    (recordIdentity n i c s).arbiters = s.arbiters := (recordIdentity_touches n i c s).arbiters

theorem retimed_arbiters (c : Fin 4) (p : Word16) (s : State) :
    (checkLimits { s with periods := upd s.periods c fun _ => p }).arbiters = s.arbiters := (retimed_touches c p s).arbiters

theorem suspendEntry_arbiters (i : SlotIx) (s : State) : (suspendEntry i s).arbiters = s.arbiters :=
  suspendEntry_read (fun _ _ _ => rfl) (fun _ _ _ => rfl) ..

theorem emptyPollQueue_arbiters (l : Link) (s : State) : (emptyPollQueue l s).arbiters = s.arbiters :=
  emptyPollQueue_read (fun _ _ _ => rfl) (fun _ _ _ => rfl) ..

theorem freeSlot_arbiters (i : SlotIx) (s : State) : (freeSlot i s).arbiters = s.arbiters := by
  unfold freeSlot; split <;> rfl

theorem finishWrite_arbiters (l : Link) (r : WriteRecord) (o : Reason) (s : State) :
    (finishWrite l r o s).arbiters = s.arbiters :=
  finishWrite_read (fun _ _ _ => rfl) (fun _ _ _ => rfl) (fun _ _ _ => rfl) (fun _ _ _ => rfl) ..

end Sys2Proof.Machine

/-!
# OUTSTANDING records and WRITE requests in flight (sections 3.3 and 7.2)
-/

namespace Sys2Proof.Machine

set_option Elab.async false

/-- A WRITE request to node `n`. -/
def Request.writesTo (n : Node) (r : Request) : Bool := r.isWrite && decide (r.node = n)

theorem Request.writesTo_sameWork (n : Node) (r r' : Request) (h : r.SameWork r') : r'.writesTo n = r.writesTo n := by
  simp [Request.writesTo, h.isWrite, h.node]

theorem Request.not_isWrite_of_polled {r : Request} {x : SlotIx × Byte} (h : r.polled = some x) : r.isWrite = false := by
  unfold Request.polled at h
  unfold Request.isWrite
  split at h <;> simp_all

/-- The OUTSTANDING records of node `n`. -/
def WriteRecord.sentTo (n : Node) (r : WriteRecord) : Bool := decide (r.node = n ∧ r.state = .outstanding)

/-- What a record's state says about it in one queue. -/
structure WriteQueue.StatesOk (q : WriteQueue) : Prop where
  reserved : ∀ x ∈ q.reserved, x.state = .reserved
  order : ∀ x ∈ q.order, x.state ≠ .reserved ∧ x.lapse = none

/-- One WRITE request to a node just while it has one OUTSTANDING record. -/
def State.WritesMatched (s : State) : Prop :=
  ∀ (l : Link) (n : Node), (s.writeQueues.get l).order.countP (WriteRecord.sentTo n) = s.inFlight (Request.writesTo n) l
    ∧ s.inFlight (Request.writesTo n) l ≤ 1

theorem State.outstandingOk_iff (s : State) :
    s.outstandingOk ↔ (∀ l, (s.writeQueues.get l).StatesOk) ∧ s.WritesMatched := by
  have hcount (l : Link) (n : Node) : ((s.writeQueues.get l).order.filter fun x => decide (x.node = n ∧ x.state = .outstanding)).length
      = (s.writeQueues.get l).order.countP (WriteRecord.sentTo n) := List.countP_eq_length_filter.symm
  constructor
  · intro h
    exact ⟨fun l => ⟨(h l).1, (h l).2.1⟩, fun l n => by rw [← hcount]; exact (h l).2.2 n⟩
  · rintro ⟨hstates, hmatched⟩ l
    obtain ⟨hreserved, horder⟩ := hstates l
    exact ⟨hreserved, horder, fun n => by rw [hcount]; exact hmatched l n⟩

/-- A replaced element stands where the one it replaces stood, and the other elements stay. -/
theorem replace_perm {α : Type} [BEq α] [LawfulBEq α] {a : α} (b : α) {xs : List α} (ha : a ∈ xs) :
    (xs.replace a b).Perm (b :: xs.erase a) := by
  induction xs with
  | nil => simp at ha
  | cons x xs ih =>
    rw [List.replace_cons]
    split
    · next hx => rw [beq_iff_eq.1 hx, List.erase_cons_head]
    · next hx =>
      have hne : x ≠ a := fun h => by simp [h] at hx
      rw [List.erase_cons_tail (by simpa using hne)]
      exact ((ih ((List.mem_cons.1 ha).resolve_left (Ne.symm hne))).cons x).trans (List.Perm.swap ..)

theorem countP_replace_add {α : Type} [BEq α] [LawfulBEq α] (p : α → Bool) {a : α} (b : α) {xs : List α} (ha : a ∈ xs) :
    (xs.replace a b).countP p + (p a).toNat = xs.countP p + (p b).toNat := by
  rw [(replace_perm b ha).countP_eq p, (List.perm_cons_erase ha).countP_eq p, List.countP_cons, List.countP_cons]
  cases p a <;> cases p b <;> simp

/-! ## The states of the records -/

theorem statesOk_modWrites {s : State} {l : Link} {f : WriteQueue → WriteQueue}
    (hf : (s.writeQueues.get l).StatesOk → (f (s.writeQueues.get l)).StatesOk) (hs : ∀ m, (s.writeQueues.get m).StatesOk) (m : Link) :
    ((s.modWrites l f).writeQueues.get m).StatesOk := by
  rw [State.modWrites_writeQueues, get_upd]
  split
  · exact hf (hs l)
  · exact hs m

theorem finishWrite_statesOk (l : Link) (r : WriteRecord) (o : Reason) {s : State} (hs : ∀ m, (s.writeQueues.get m).StatesOk)
    (m : Link) : ((finishWrite l r o s).writeQueues.get m).StatesOk := by
  rw [finishWrite_writeQueues]
  exact statesOk_modWrites (fun hq => ⟨hq.reserved, fun x hx => hq.order x (List.mem_of_mem_erase hx)⟩) hs m

theorem dropReservation_statesOk (h : Host) (l : Link) {s : State} (hs : ∀ m, (s.writeQueues.get m).StatesOk) (m : Link) :
    ((dropReservation h l s).writeQueues.get m).StatesOk :=
  statesOk_modWrites (fun hq => ⟨fun x hx => hq.reserved x (List.mem_of_mem_filter hx), hq.order⟩) hs m

theorem act_statesOk {port : Scope} {net : Bool} {s t : State} (h : Act port net s t) (hs : ∀ l, (s.writeQueues.get l).StatesOk) (l : Link) :
    (t.writeQueues.get l).StatesOk := by
  cases h with
  | touch h => exact h.writeQueues ▸ hs l
  | aside _ _ hwrites => exact hwrites ▸ hs l
  | retimed => rw [retimed_writeQueues]; exact hs l
  | identified => rw [recordIdentity_writeQueues]; exact hs l
  | suspended => rw [suspendEntry_writeQueues]; exact hs l
  | emptied => rw [emptyPollQueue_writeQueues]; exact hs l
  | freed => rw [freeSlot_writeQueues]; exact hs l
  | reserved h n =>
    refine statesOk_modWrites (fun hq => ⟨fun x hx => ?_, hq.order⟩) hs l
    rcases List.mem_append.1 hx with hx | hx
    · exact hq.reserved x hx
    · rw [List.mem_singleton.1 hx]; rfl
  | rereserved m f _ hf =>
    refine statesOk_modWrites (fun hq => ⟨fun x hx => ?_, hq.order⟩) hs l
    obtain ⟨y, hy, rfl⟩ := List.mem_map.1 hx
    exact (hf y).2.1 ▸ hq.reserved y hy
  | dropped h m => exact dropReservation_statesOk h m hs l
  | taken h m r seq _ hr hlapse =>
    refine statesOk_modWrites (fun hq => ⟨hq.reserved, fun x hx => ?_⟩) (dropReservation_statesOk h m hs) l
    rcases List.mem_append.1 hx with hx | hx
    · exact hq.order x hx
    · rw [List.mem_singleton.1 hx]; exact ⟨by simp, hlapse⟩
  | lapsed h m r why seq => exact finishWrite_statesOk _ _ _ (dropReservation_statesOk h m hs) l
  | finished m r o => exact finishWrite_statesOk _ _ _ hs l
  | restated m p st _ _ hst =>
    refine statesOk_modWrites (fun hq => ⟨hq.reserved, fun x hx => ?_⟩) hs l
    obtain ⟨y, hy, rfl⟩ := List.mem_map.1 hx
    have hy := hq.order y hy
    split
    · exact ⟨by rcases hst with rfl | rfl <;> simp, hy.2⟩
    · exact hy
  | clearedWrites h =>
    rw [clearWrites_writeQueues]
    refine ⟨(hs l).reserved, fun x hx => ?_⟩
    obtain ⟨y, hy, rfl⟩ := List.mem_map.1 hx
    have hy := (hs l).order y (List.mem_of_mem_filter hy)
    split <;> exact hy
  | drained h c =>
    rw [State.modHost_writeQueues, markCovered_writeQueues]
    refine ⟨(hs l).reserved, fun x hx => ?_⟩
    obtain ⟨y, hy, rfl⟩ := List.mem_map.1 hx
    have hy := (hs l).order y hy
    split <;> exact hy
  | granted m =>
    rcases (grantOne_grant m s).writeQueues with heq | ⟨r, hr, heq⟩ <;> rw [heq]
    · exact hs l
    · refine statesOk_modWrites (fun hq => ⟨hq.reserved, fun x hx => ?_⟩) hs l
      have hmem := (offered_some hr).1
      rcases List.mem_cons.1 ((replace_perm _ hmem).mem_iff.1 hx) with rfl | hx
      · exact ⟨by simp, (hq.order r hmem).2⟩
      · exact hq.order x (List.mem_of_mem_erase hx)
  | writeEnded m g r w o => exact finishWrite_statesOk _ _ _ (s := withdraw m g s) hs l
  | _ => exact hs l

/-! ## The matching of records and requests -/

section
variable {s t : State}

theorem State.WritesMatched.of_eq (hs : s.WritesMatched)
    (hsent : ∀ l n, (t.writeQueues.get l).order.countP (WriteRecord.sentTo n) = (s.writeQueues.get l).order.countP (WriteRecord.sentTo n))
    (hflight : ∀ l n, t.inFlight (Request.writesTo n) l = s.inFlight (Request.writesTo n) l) : t.WritesMatched := by
  intro l n
  rw [hsent, hflight]
  exact hs l n

theorem State.WritesMatched.of_arbiters (hs : s.WritesMatched)
    (hsent : ∀ l n, (t.writeQueues.get l).order.countP (WriteRecord.sentTo n) = (s.writeQueues.get l).order.countP (WriteRecord.sentTo n))
    (ha : t.arbiters = s.arbiters) : t.WritesMatched :=
  hs.of_eq hsent fun l _ => State.inFlight_of_arbiters ha _ l

theorem State.WritesMatched.of_same (hs : s.WritesMatched) (hw : t.writeQueues = s.writeQueues) (ha : t.arbiters = s.arbiters) :
    t.WritesMatched := hs.of_arbiters (fun _ _ => by rw [hw]) ha

theorem State.WritesMatched.of_sameWork (hs : s.WritesMatched) (hw : t.writeQueues = s.writeQueues)
    (hflight : ∀ l n, t.inFlight (Request.writesTo n) l = s.inFlight (Request.writesTo n) l) : t.WritesMatched :=
  hs.of_eq (fun _ _ => by rw [hw]) hflight

end

/-- The OUTSTANDING records after a change of one queue. -/
theorem sent_modWrites {s : State} {l : Link} {f : WriteQueue → WriteQueue} (n : Node)
    (hf : (f (s.writeQueues.get l)).order.countP (WriteRecord.sentTo n) = (s.writeQueues.get l).order.countP (WriteRecord.sentTo n))
    (m : Link) : ((s.modWrites l f).writeQueues.get m).order.countP (WriteRecord.sentTo n)
      = (s.writeQueues.get m).order.countP (WriteRecord.sentTo n) := by
  rw [State.modWrites_writeQueues, get_upd]
  split
  · next hm => rw [hm, hf]
  · rfl

/-- Freeing a record that is not OUTSTANDING leaves the OUTSTANDING ones. -/
theorem sent_finishWrite {r : WriteRecord} (hr : r.state ≠ .outstanding) (l : Link) (o : Reason) (s : State) (m : Link) (n : Node) :
    ((finishWrite l r o s).writeQueues.get m).order.countP (WriteRecord.sentTo n)
      = (s.writeQueues.get m).order.countP (WriteRecord.sentTo n) := by
  rw [finishWrite_writeQueues]
  exact sent_modWrites n (by simp [freeRecord, List.countP_erase, WriteRecord.sentTo, hr]) m

theorem countP_map_of_eq {α : Type} {p : α → Bool} {f : α → α} (hf : ∀ x, p (f x) = p x) (xs : List α) :
    (xs.map f).countP p = xs.countP p := by
  simp [List.countP_map, Function.comp_def, hf]

/-- A sent record and its request come together. -/
theorem write_grant_matched {l : Link} {g : Tag} {r : WriteRecord} {s : State} (hfree : s.request l g = none)
    (hr : (s.writeQueues.get l).offered = some r) (hs : s.WritesMatched) :
    (grantTag l g .write (newRequest .write r.node r.address r.data.length) (sendWrite l r s)).WritesMatched := by
  obtain ⟨hmem, hqueued, hnone⟩ := offered_some hr
  intro m n
  have hflight := grantTag_inFlight (s := sendWrite l r s) (l := l) (t := g) hfree .write
    (newRequest .write r.node r.address r.data.length) (Request.writesTo n) m
  have hsame : (sendWrite l r s).inFlight (Request.writesTo n) m = s.inFlight (Request.writesTo n) m := rfl
  have hs := hs m n
  rw [hflight, hsame]
  by_cases hm : m = l
  · subst hm
    have hreplace := countP_replace_add (WriteRecord.sentTo n) { r with state := .outstanding } hmem
    have hqueues : ((grantTag m g .write (newRequest .write r.node r.address r.data.length) (sendWrite m r s)).writeQueues.get m).order
        = (s.writeQueues.get m).order.replace r { r with state := .outstanding } := by
      simp [grantTag, sendWrite]
    rw [hqueues]
    by_cases hn : r.node = n
    · have hzero : (s.writeQueues.get m).order.countP (WriteRecord.sentTo n) = 0 :=
        List.countP_eq_zero.2 fun x hx => by simpa [WriteRecord.sentTo, hn] using hnone x hx
      have hold : r.sentTo n = false := by simp [WriteRecord.sentTo, hqueued]
      have hnew : WriteRecord.sentTo n { r with state := .outstanding } = true := by simp [WriteRecord.sentTo, hn]
      have hrequest : (newRequest .write r.node r.address r.data.length).writesTo n = true := by
        simp [Request.writesTo, newRequest, Request.isWrite, hn]
      rw [hold, hnew] at hreplace
      simp only [hrequest, if_true, Bool.toNat_true, Bool.toNat_false] at hreplace ⊢
      omega
    · have hold : r.sentTo n = false := by simp [WriteRecord.sentTo, hn]
      have hnew : WriteRecord.sentTo n { r with state := .outstanding } = false := by simp [WriteRecord.sentTo, hn]
      have hrequest : (newRequest .write r.node r.address r.data.length).writesTo n = false := by
        simp [Request.writesTo, newRequest, hn]
      rw [hold, hnew] at hreplace
      simp only [hrequest, if_true, Bool.toNat_false] at hreplace ⊢
      omega
  · have hqueues : (grantTag l g .write (newRequest .write r.node r.address r.data.length) (sendWrite l r s)).writeQueues.get m
        = s.writeQueues.get m := by
      simp [grantTag, sendWrite, hm]
    rw [hqueues]
    simpa [hm] using hs

theorem grant_matched {m : Link} {s u : State} (hg : Grant m s u) (hs : s.WritesMatched) : u.WritesMatched := by
  cases hg with
  | none => exact hs
  | dropped => exact hs.of_same rfl rfl
  | write g r hfree _ hr => exact write_grant_matched (lowestFree_some hfree).1 hr hs
  | ident g x rest hfree =>
    refine hs.of_sameWork rfl fun l n => ?_
    have hsame := inFlight_of_tags (l := m) (f := fun a => { a with idents := rest }) (fun _ => rfl) s (Request.writesTo n) l
    have hnone := modArbiter_request_of_tags (l := m) (f := fun a => { a with idents := rest }) (fun _ => rfl) s m g
    rw [grantTag_inFlight (hnone.trans (lowestFree_some hfree).1), hsame]
    simp [Request.writesTo, newRequest, Request.isWrite]
  | fetch g x rest hfree =>
    refine hs.of_sameWork rfl fun l n => ?_
    have hsame := inFlight_of_tags (l := m) (f := fun a => { a with fetches := rest }) (fun _ => rfl) s (Request.writesTo n) l
    have hnone := modArbiter_request_of_tags (l := m) (f := fun a => { a with fetches := rest }) (fun _ => rfl) s m g
    rw [grantTag_inFlight (hnone.trans (lowestFree_some hfree).1), hsame]
    simp [Request.writesTo, newRequest, Request.isWrite]
  | poll g item rest e hfree =>
    refine hs.of_sameWork rfl fun l n => ?_
    rw [grantTag_inFlight (s := (s.modPolls m fun _ => rest).modEntry item.slot fun e => { e with phase := .inFlight })
      (lowestFree_some hfree).1]
    simp [Request.writesTo, newRequest, Request.isWrite]
    rfl

/-- An OUTSTANDING record and its request go together. -/
theorem writeEnded_matched {l : Link} {g : Tag} {r : Request} {w : WriteRecord} {s : State} (o : Reason)
    (hr : s.request l g = some r) (hwrite : r.isWrite = true) (hw : (s.writeQueues.get l).outstanding r.node = some w)
    (hs : s.WritesMatched) : (finishWrite l w o (withdraw l g s)).WritesMatched := by
  obtain ⟨hmem, hnode, hstate⟩ := outstanding_some hw
  intro m n
  have hflight : (finishWrite l w o (withdraw l g s)).inFlight (Request.writesTo n) m = (withdraw l g s).inFlight (Request.writesTo n) m :=
    State.inFlight_of_arbiters (finishWrite_arbiters ..) ..
  have hgone := withdraw_inFlight hr (Request.writesTo n) m
  have hs := hs m n
  have horder : ((finishWrite l w o (withdraw l g s)).writeQueues.get m).order
      = if m = l then (s.writeQueues.get m).order.erase w else (s.writeQueues.get m).order := by
    rw [finishWrite_writeQueues, State.modWrites_writeQueues, get_upd]
    split
    · next hm => rw [hm]; rfl
    · rfl
  rw [hflight, horder]
  by_cases hm : m = l
  · subst hm
    have hsame : w.sentTo n = r.writesTo n := by simp [WriteRecord.sentTo, Request.writesTo, hwrite, hnode, hstate]
    rw [if_pos rfl, List.countP_erase, hsame]
    rw [if_pos rfl] at hgone
    by_cases hn : r.writesTo n = true
    · simp only [hn, Bool.toNat_true, hmem, and_self, if_true] at hgone ⊢
      omega
    · simp only [Bool.not_eq_true] at hn
      simp only [hn, Bool.toNat_false, Bool.false_eq_true, and_false, if_false] at hgone ⊢
      omega
  · simp only [hm, if_false, Nat.add_zero] at hgone ⊢
    rwa [hgone]

/-- A request that ends without an OUTSTANDING record is no WRITE request. -/
theorem discarded_matched {l : Link} {g : Tag} {r : Request} {s : State} (hr : s.request l g = some r)
    (hwrite : r.isWrite = true → (s.writeQueues.get l).outstanding r.node = none) (hs : s.WritesMatched) :
    (withdraw l g s).WritesMatched := by
  refine hs.of_sameWork rfl fun m n => ?_
  have hgone := withdraw_inFlight hr (Request.writesTo n) m
  by_cases hm : m = l
  · subst hm
    have hno : r.writesTo n = false := by
      by_contra hyes
      obtain ⟨hw, hn⟩ : r.isWrite = true ∧ r.node = n := by simpa [Request.writesTo] using hyes
      have hnone := List.find?_eq_none.1 (hwrite hw)
      have hzero : (s.writeQueues.get m).order.countP (WriteRecord.sentTo n) = 0 :=
        List.countP_eq_zero.2 fun x hx => by simpa [WriteRecord.sentTo, hn] using hnone x hx
      have hpos := State.inFlight_pos hr (by simpa using hyes : r.writesTo n = true)
      have := (hs m n).1
      omega
    simpa [hno] using hgone
  · simpa [hm] using hgone

theorem act_writesMatched {port : Scope} {net : Bool} {s t : State} (h : Act port net s t) (hstates : ∀ l, (s.writeQueues.get l).StatesOk)
    (hs : s.WritesMatched) : t.WritesMatched := by
  cases h with
  | touch h => exact hs.of_same h.writeQueues h.arbiters
  | aside _ _ hwrites harbiters => exact hs.of_same hwrites harbiters
  | retimed => exact hs.of_same (retimed_writeQueues ..) (retimed_arbiters ..)
  | identified => exact hs.of_same (recordIdentity_writeQueues ..) (recordIdentity_arbiters ..)
  | suspended => exact hs.of_same (suspendEntry_writeQueues ..) (suspendEntry_arbiters ..)
  | emptied => exact hs.of_same (emptyPollQueue_writeQueues ..) (emptyPollQueue_arbiters ..)
  | freed => exact hs.of_same (freeSlot_writeQueues ..) (freeSlot_arbiters ..)
  | reserved h n => exact hs.of_arbiters (fun l n => sent_modWrites n rfl l) rfl
  | rereserved m f => exact hs.of_arbiters (fun l n => sent_modWrites n rfl l) rfl
  | dropped h m => exact hs.of_arbiters (fun l n => sent_modWrites n rfl l) rfl
  | taken h m r seq =>
    refine hs.of_arbiters (fun l n => ?_) rfl
    have htaken := sent_modWrites (s := dropReservation h m s) (l := m)
      (f := fun q => { q with order := q.order ++ [{ r with seq := some seq, state := .queued }] }) n (by simp [WriteRecord.sentTo]) l
    exact htaken.trans (sent_modWrites n rfl l)
  | lapsed h m r why seq _ hr =>
    have hstate : r.state = .reserved := (hstates m).reserved r (State.reservation_mem hr).1
    refine hs.of_arbiters (fun l n => ?_) (finishWrite_arbiters ..)
    exact (sent_finishWrite (by simp [hstate]) ..).trans (sent_modWrites n rfl l)
  | finished m r o _ _ hstate => exact hs.of_arbiters (fun l n => sent_finishWrite hstate ..) (finishWrite_arbiters ..)
  | restated m p st _ hp hst =>
    refine hs.of_arbiters (fun l n => sent_modWrites n (countP_map_of_eq (fun r => ?_) _) l) rfl
    split
    · next h =>
      have hbefore := hp r h
      rcases hst with rfl | rfl <;> rcases hbefore with hr | hr <;> simp [WriteRecord.sentTo, hr]
    · rfl
  | clearedWrites h =>
    refine hs.of_arbiters (fun l n => ?_) rfl
    rw [clearWrites_writeQueues, WriteQueue.clear, countP_map_of_eq (fun r => by split <;> rfl), List.countP_filter]
    refine List.countP_congr fun r _ => ?_
    simp only [WriteRecord.sentTo, clearable, Bool.and_eq_true, decide_eq_true_eq, Bool.not_eq_true', decide_eq_false_iff_not]
    constructor
    · exact And.left
    · rintro ⟨hn, hr⟩
      exact ⟨⟨hn, hr⟩, by simp [hr]⟩
  | drained h c =>
    refine hs.of_arbiters (fun l n => ?_) rfl
    rw [State.modHost_writeQueues, markCovered_writeQueues, WriteQueue.cover, countP_map_of_eq (fun r => by split <;> rfl)]
  | granted m => exact grant_matched (grantOne_grant m s) hs
  | lined m f _ hf => exact hs.of_sameWork rfl fun l n => inFlight_sameWork hf (Request.writesTo_sameWork n) l
  | fetching m | unfetched m => exact hs.of_sameWork rfl fun l n => inFlight_of_tags (by exact fun _ => rfl) s _ l
  | discarded m g r _ hr _ hwrite => exact discarded_matched hr hwrite hs
  | pollEnded m g r i e f _ hr _ hpoll =>
    have hno : r.isWrite = true → (s.writeQueues.get m).outstanding r.node = none := fun h =>
      absurd h (by simp [Request.not_isWrite_of_polled hpoll.1])
    have hgone := discarded_matched hr hno hs
    exact hgone.of_same (t := (withdraw m g s).modEntry i f) rfl rfl
  | writeEnded m g r w o _ hr hwrite hw => exact writeEnded_matched o hr hwrite hw hs
  | _ => exact hs.of_same rfl rfl

end Sys2Proof.Machine

/-!
# DRAIN records and covered records (section 3.7)
-/

namespace Sys2Proof.Machine

set_option Elab.async false

/-- A covered record of host `h`. -/
def WriteRecord.coversFor (h : Host) (r : WriteRecord) : Bool := decide (r.origin = h) && r.covered

/-- The number of covered records of host `h` in both queues. -/
def State.coveredCount (s : State) (h : Host) : Nat :=
  (s.writeQueues.get 0).order.countP (WriteRecord.coversFor h) + (s.writeQueues.get 1).order.countP (WriteRecord.coversFor h)

/-- What the DRAIN record of a host and the number of its covered records have to do with each other. -/
def DrainMatches (drain : Option DrainRecord) (covered : Nat) : Prop :=
  (drain.isSome ↔ covered ≠ 0) ∧ ∀ d ∈ drain, d.failed + covered ≤ d.covered

/-- No reservation is covered, and a covered record is a reported one. -/
structure WriteQueue.CoverOk (q : WriteQueue) : Prop where
  reserved : ∀ r ∈ q.reserved, r.covered = false
  order : ∀ r ∈ q.order, r.covered = true → r.reported = true

theorem State.drainsOk_iff (s : State) :
    s.drainsOk ↔ (∀ l, (s.writeQueues.get l).CoverOk) ∧ ∀ h, DrainMatches (s.hosts.get h).drain (s.coveredCount h) := by
  have hcount (h : Host) : (((s.writeQueues.get 0).order ++ (s.writeQueues.get 1).order).filter fun r =>
      decide (r.origin = h) && r.covered).length = s.coveredCount h := by
    rw [← List.countP_eq_length_filter, List.countP_append]; rfl
  have hnil (h : Host) : (((s.writeQueues.get 0).order ++ (s.writeQueues.get 1).order).filter fun r =>
      decide (r.origin = h) && r.covered) ≠ [] ↔ s.coveredCount h ≠ 0 := by
    rw [← hcount, Ne, Ne, List.length_eq_zero_iff]
  constructor
  · rintro ⟨hreserved, hall⟩
    have horder (l : Link) (r : WriteRecord) (hr : r ∈ (s.writeQueues.get l).order) (hc : r.covered = true) : r.reported = true := by
      refine (hall r.origin).2.1 r (List.mem_filter.2 ⟨List.mem_append.2 ?_, by simp [hc]⟩)
      match l with
      | 0 => exact .inl hr
      | 1 => exact .inr hr
    exact ⟨fun l => ⟨hreserved l, horder l⟩, fun h => ⟨(hall h).1.trans (hnil h), fun d hd => hcount h ▸ (hall h).2.2 d hd⟩⟩
  · rintro ⟨hcover, hmatch⟩
    refine ⟨fun l => (hcover l).reserved, fun h => ⟨(hmatch h).1.trans (hnil h).symm, fun r hr => ?_, fun d hd => ?_⟩⟩
    · obtain ⟨hmem, hp⟩ := List.mem_filter.1 hr
      simp only [Bool.and_eq_true, decide_eq_true_eq] at hp
      rcases List.mem_append.1 hmem with hmem | hmem
      · exact (hcover 0).order r hmem hp.2
      · exact (hcover 1).order r hmem hp.2
    · exact (hcount h).symm ▸ (hmatch h).2 d hd

/-! ## Covered records are reported ones -/

theorem coverOk_modWrites {s : State} {l : Link} {f : WriteQueue → WriteQueue}
    (hf : (s.writeQueues.get l).CoverOk → (f (s.writeQueues.get l)).CoverOk) (hs : ∀ m, (s.writeQueues.get m).CoverOk) (m : Link) :
    ((s.modWrites l f).writeQueues.get m).CoverOk := by
  rw [State.modWrites_writeQueues, get_upd]
  split
  · exact hf (hs l)
  · exact hs m

theorem finishWrite_coverOk (l : Link) (r : WriteRecord) (o : Reason) {s : State} (hs : ∀ m, (s.writeQueues.get m).CoverOk)
    (m : Link) : ((finishWrite l r o s).writeQueues.get m).CoverOk := by
  rw [finishWrite_writeQueues]
  exact coverOk_modWrites (fun hq => ⟨hq.reserved, fun x hx => hq.order x (List.mem_of_mem_erase hx)⟩) hs m

theorem dropReservation_coverOk (h : Host) (l : Link) {s : State} (hs : ∀ m, (s.writeQueues.get m).CoverOk) (m : Link) :
    ((dropReservation h l s).writeQueues.get m).CoverOk :=
  coverOk_modWrites (fun hq => ⟨fun x hx => hq.reserved x (List.mem_of_mem_filter hx), hq.order⟩) hs m

theorem act_coverOk {port : Scope} {net : Bool} {s t : State} (h : Act port net s t) (hs : ∀ l, (s.writeQueues.get l).CoverOk) (l : Link) :
    (t.writeQueues.get l).CoverOk := by
  cases h with
  | touch h => exact h.writeQueues ▸ hs l
  | aside _ _ hwrites => exact hwrites ▸ hs l
  | retimed => rw [retimed_writeQueues]; exact hs l
  | identified => rw [recordIdentity_writeQueues]; exact hs l
  | suspended => rw [suspendEntry_writeQueues]; exact hs l
  | emptied => rw [emptyPollQueue_writeQueues]; exact hs l
  | freed => rw [freeSlot_writeQueues]; exact hs l
  | reserved h n =>
    refine coverOk_modWrites (fun hq => ⟨fun x hx => ?_, hq.order⟩) hs l
    rcases List.mem_append.1 hx with hx | hx
    · exact hq.reserved x hx
    · rw [List.mem_singleton.1 hx]; rfl
  | rereserved m f _ hf =>
    refine coverOk_modWrites (fun hq => ⟨fun x hx => ?_, hq.order⟩) hs l
    obtain ⟨y, hy, rfl⟩ := List.mem_map.1 hx
    exact (hf y).2.2 ▸ hq.reserved y hy
  | dropped h m => exact dropReservation_coverOk h m hs l
  | taken h m r seq _ hr =>
    have hr := (hs m).reserved r (State.reservation_mem hr).1
    refine coverOk_modWrites (fun hq => ⟨hq.reserved, fun x hx => ?_⟩) (dropReservation_coverOk h m hs) l
    rcases List.mem_append.1 hx with hx | hx
    · exact hq.order x hx
    · rw [List.mem_singleton.1 hx]; simp [hr]
  | lapsed h m r why seq => exact finishWrite_coverOk _ _ _ (dropReservation_coverOk h m hs) l
  | finished m r o => exact finishWrite_coverOk _ _ _ hs l
  | restated m p st =>
    refine coverOk_modWrites (fun hq => ⟨hq.reserved, fun x hx => ?_⟩) hs l
    obtain ⟨y, hy, rfl⟩ := List.mem_map.1 hx
    have hy := hq.order y hy
    split <;> exact hy
  | clearedWrites h =>
    rw [clearWrites_writeQueues]
    refine ⟨(hs l).reserved, fun x hx => ?_⟩
    obtain ⟨y, hy, rfl⟩ := List.mem_map.1 hx
    have hy := (hs l).order y (List.mem_of_mem_filter hy)
    split
    · simp
    · exact hy
  | drained h c =>
    rw [State.modHost_writeQueues, markCovered_writeQueues]
    refine ⟨(hs l).reserved, fun x hx => ?_⟩
    obtain ⟨y, hy, rfl⟩ := List.mem_map.1 hx
    have hy := (hs l).order y hy
    split
    · next hc =>
      intro _
      simp only [drainCovers, Bool.and_eq_true] at hc
      exact hc.1.2
    · exact hy
  | granted m =>
    rcases (grantOne_grant m s).writeQueues with heq | ⟨r, hr, heq⟩ <;> rw [heq]
    · exact hs l
    · refine coverOk_modWrites (fun hq => ⟨hq.reserved, fun x hx => ?_⟩) hs l
      have hmem := (offered_some hr).1
      rcases List.mem_cons.1 ((replace_perm _ hmem).mem_iff.1 hx) with rfl | hx
      · exact hq.order r hmem
      · exact hq.order x (List.mem_of_mem_erase hx)
  | writeEnded m g r w o => exact finishWrite_coverOk _ _ _ (s := withdraw m g s) hs l
  | _ => exact hs l

/-! ## A DRAIN and its covered records -/

/-- Every host's DRAIN goes with its covered records. -/
def State.DrainsMatch (s : State) : Prop := ∀ h, DrainMatches (s.hosts.get h).drain (s.coveredCount h)

section
variable {s t : State}

theorem State.DrainsMatch.of_eq (hs : s.DrainsMatch) (hdrain : ∀ h, (t.hosts.get h).drain = (s.hosts.get h).drain)
    (hcount : ∀ h, t.coveredCount h = s.coveredCount h) : t.DrainsMatch := by
  intro h
  rw [hdrain, hcount]
  exact hs h

theorem State.coveredCount_of_eq (h : Host)
    (hq : ∀ l, (t.writeQueues.get l).order.countP (WriteRecord.coversFor h) = (s.writeQueues.get l).order.countP (WriteRecord.coversFor h)) :
    t.coveredCount h = s.coveredCount h := by
  simp only [State.coveredCount, hq]

theorem State.DrainsMatch.of_same (hs : s.DrainsMatch) (hdrain : ∀ h, (t.hosts.get h).drain = (s.hosts.get h).drain)
    (hw : t.writeQueues = s.writeQueues) : t.DrainsMatch :=
  hs.of_eq hdrain fun h => State.coveredCount_of_eq h fun _ => by rw [hw]

end

theorem State.modHost_coveredCount (h g : Host) (f : HostState → HostState) (s : State) :
    (s.modHost h f).coveredCount g = s.coveredCount g := rfl

theorem coveredCount_modWrites {s : State} {l : Link} {f : WriteQueue → WriteQueue} (h : Host)
    (hf : (f (s.writeQueues.get l)).order.countP (WriteRecord.coversFor h) = (s.writeQueues.get l).order.countP (WriteRecord.coversFor h)) :
    (s.modWrites l f).coveredCount h = s.coveredCount h := by
  refine State.coveredCount_of_eq h fun m => ?_
  rw [State.modWrites_writeQueues, get_upd]
  split
  · next hm => rw [hm, hf]
  · rfl

/-- Freeing a record takes it from the covered ones. -/
theorem coveredCount_freeRecord {r : WriteRecord} {l : Link} {s : State} (hr : r ∈ (s.writeQueues.get l).order) (h : Host) :
    (s.modWrites l (freeRecord r)).coveredCount h + (r.coversFor h).toNat = s.coveredCount h := by
  have herase : ((s.writeQueues.get l).order.erase r).countP (WriteRecord.coversFor h) + (r.coversFor h).toNat
      = (s.writeQueues.get l).order.countP (WriteRecord.coversFor h) := by
    rw [(List.perm_cons_erase hr).countP_eq (WriteRecord.coversFor h), List.countP_cons]
    cases r.coversFor h <;> simp
  match l with
  | 0 =>
    have h0 : ((s.modWrites 0 (freeRecord r)).writeQueues.get 0).order = (s.writeQueues.get 0).order.erase r := by
      rw [State.modWrites_writeQueues, get_upd]; rfl
    have h1 : ((s.modWrites 0 (freeRecord r)).writeQueues.get 1).order = (s.writeQueues.get 1).order := by
      rw [State.modWrites_writeQueues, get_upd]; rfl
    simp only [State.coveredCount, h0, h1]
    omega
  | 1 =>
    have h0 : ((s.modWrites 1 (freeRecord r)).writeQueues.get 0).order = (s.writeQueues.get 0).order := by
      rw [State.modWrites_writeQueues, get_upd]; rfl
    have h1 : ((s.modWrites 1 (freeRecord r)).writeQueues.get 1).order = (s.writeQueues.get 1).order.erase r := by
      rw [State.modWrites_writeQueues, get_upd]; rfl
    simp only [State.coveredCount, h0, h1]
    omega

/-- A record that is not covered is of no DRAIN. -/
theorem coveredCount_freeRecord_uncovered {r : WriteRecord} (hr : r.covered = false) (l : Link) (s : State) (h : Host) :
    (s.modWrites l (freeRecord r)).coveredCount h = s.coveredCount h :=
  coveredCount_modWrites h (by simp [freeRecord, List.countP_erase, WriteRecord.coversFor, hr])

theorem State.coveredLeft_eq_true_iff_count (s : State) (h : Host) : s.coveredLeft h = true ↔ s.coveredCount h ≠ 0 := by
  rw [s.coveredLeft_eq_true_iff, State.coveredCount]
  simp only [ne_eq, Nat.add_eq_zero_iff, List.countP_eq_zero, WriteRecord.coversFor, Bool.and_eq_true, decide_eq_true_eq]
  constructor
  · rintro ⟨l, x, hx, hp⟩ ⟨h0, h1⟩
    match l with
    | 0 => exact h0 x hx hp
    | 1 => exact h1 x hx hp
  · intro h
    by_contra hno
    push Not at hno
    exact h ⟨fun x hx hp => hno 0 x hx hp.1 hp.2, fun x hx hp => hno 1 x hx hp.1 hp.2⟩

theorem finishWrite_uncovered_match {r : WriteRecord} (hr : r.covered = false) (l : Link) (o : Reason) {s : State}
    (hs : s.DrainsMatch) : (finishWrite l r o s).DrainsMatch := by
  rw [finishWrite_uncovered l o s hr]
  refine hs.of_eq (fun h => tellEnding_drain r o h s) fun h => ?_
  rw [coveredCount_freeRecord_uncovered hr]
  exact State.coveredCount_of_eq h fun m => by rw [tellEnding_writeQueues]

/-- R62: the DRAIN of a host goes on while it has covered records, and is over with the last one. -/
theorem completeDrain_match {h : Host} {k : DrainRecord} {s : State} (hk : (s.hosts.get h).drain = some k)
    (hbound : k.failed + s.coveredCount h ≤ k.covered)
    (hother : ∀ g, g ≠ h → DrainMatches (s.hosts.get g).drain (s.coveredCount g)) : (completeDrain h s).DrainsMatch := by
  cases hleft : s.coveredLeft h with
  | true =>
    rw [completeDrain_waits hk hleft]
    intro g
    by_cases hg : g = h
    · subst hg
      exact ⟨by simp [hk, (s.coveredLeft_eq_true_iff_count g).1 hleft], fun x hx => by
        obtain rfl : k = x := by simpa [hk] using hx
        exact hbound⟩
    · exact hother g hg
  | false =>
    rw [completeDrain_done hk hleft]
    have hleft : s.coveredCount h = 0 := by
      by_contra hne
      exact absurd ((s.coveredLeft_eq_true_iff_count h).2 hne) (by simp [hleft])
    intro g
    by_cases hg : g = h
    · subst hg
      refine ⟨?_, by simp⟩
      simp only [State.modHost_hosts, get_upd, if_true, Option.isSome_none, Bool.false_eq_true, false_iff, not_not]
      exact hleft
    · have hdrain : (((notify h (eventOf .drainDone 0 Reason.ok.code (word16 (byteOf k.covered) (byteOf k.failed))) s).modHost h
          fun hs => { hs with drain := none }).hosts.get g).drain = (s.hosts.get g).drain := by
        simp [notify, hg]
      rw [hdrain]
      exact hother g hg

/-- R62: the DRAIN counts a failure as its covered record goes. -/
theorem finishWrite_match {r : WriteRecord} {l : Link} (o : Reason) {s : State} (hr : r ∈ (s.writeQueues.get l).order)
    (hs : s.DrainsMatch) : (finishWrite l r o s).DrainsMatch := by
  by_cases hc : r.covered = true
  · have hcount (h : Host) : ((tellEnding r o s).modWrites l (freeRecord r)).coveredCount h + (r.coversFor h).toNat = s.coveredCount h := by
      have hsame : ((tellEnding r o s).modWrites l (freeRecord r)).coveredCount h = (s.modWrites l (freeRecord r)).coveredCount h :=
        State.coveredCount_of_eq h fun m => by rw [State.modWrites_writeQueues, State.modWrites_writeQueues, tellEnding_writeQueues]
      rw [hsame, coveredCount_freeRecord hr]
    have hdrains (h : Host) : (((tellEnding r o s).modWrites l (freeRecord r)).hosts.get h).drain = (s.hosts.get h).drain :=
      tellEnding_drain r o h s
    have hown := hcount r.origin
    have hself : r.coversFor r.origin = true := by simp [WriteRecord.coversFor, hc]
    rw [hself, Bool.toNat_true] at hown
    obtain ⟨d, hd⟩ := Option.isSome_iff_exists.1 ((hs r.origin).1.2 (by omega))
    have hbound := (hs r.origin).2 d hd
    rw [finishWrite_covered l o hc hd]
    generalize (tellEnding r o s).modWrites l (freeRecord r) = u at hcount hdrains hown ⊢
    refine completeDrain_match (k := { d with failed := if o = .ok then d.failed else d.failed + 1 }) (by simp) ?_ fun g hg => ?_
    · have hsame : (u.modHost r.origin fun hs => { hs with drain := some { d with failed := if o = .ok then d.failed else d.failed + 1 } }).coveredCount
          r.origin = u.coveredCount r.origin := rfl
      rw [hsame]
      dsimp only
      split <;> omega
    · have hother : r.coversFor g = false := by simp [WriteRecord.coversFor, Ne.symm hg]
      have hsame := hcount g
      rw [hother, Bool.toNat_false, Nat.add_zero] at hsame
      have hmatch := hs g
      rw [← hdrains g, ← hsame] at hmatch
      simpa [hg, State.modHost_coveredCount] using hmatch
  · exact finishWrite_uncovered_match (by simpa using hc) l o hs

/-- R61: a host without a pending DRAIN has no covered record, so just those that the new DRAIN covers are covered. -/
theorem drained_match {h : Host} {c : Word16} {s : State} (hno : (s.hosts.get h).drain = none) (hsome : s.drainCount h ≠ 0)
    (hs : s.DrainsMatch) : ((markCovered h s).modHost h fun hs =>
      { hs with drain := some { counter := c, covered := s.drainCount h, failed := 0 } }).DrainsMatch := by
  have hnone : s.coveredCount h = 0 := by
    by_contra hne
    have := (hs h).1.2 hne
    simp [hno] at this
  have hqueue (l : Link) (g : Host) : ((markCovered h s).writeQueues.get l).order.countP (WriteRecord.coversFor g)
      = (s.writeQueues.get l).order.countP fun r => decide (g = h) && drainCovers h r || r.coversFor g := by
    rw [markCovered_writeQueues, WriteQueue.cover, List.countP_map]
    refine List.countP_congr fun r _ => ?_
    by_cases hcov : drainCovers h r = true
    · have horigin : r.origin = h := by
        simp only [drainCovers, Bool.and_eq_true, decide_eq_true_eq] at hcov
        exact hcov.1.1
      simp only [Function.comp_apply, hcov, if_true, WriteRecord.coversFor, horigin, Bool.and_true, decide_eq_true_eq, Bool.or_eq_true,
        Bool.and_eq_true]
      constructor
      · exact fun hg => .inl hg.symm
      · rintro (hg | ⟨hg, -⟩)
        · exact hg.symm
        · exact hg
    · simp [hcov]
  intro g
  by_cases hg : g = h
  · subst hg
    have hcount : ((markCovered g s).modHost g fun hs =>
        { hs with drain := some { counter := c, covered := s.drainCount g, failed := 0 } }).coveredCount g = s.drainCount g := by
      have hzero (l : Link) (r : WriteRecord) (hr : r ∈ (s.writeQueues.get l).order) : r.coversFor g = false := by
        obtain ⟨h0, h1⟩ := Nat.add_eq_zero_iff.1 hnone
        match l with
        | 0 => simpa using List.countP_eq_zero.1 h0 r hr
        | 1 => simpa using List.countP_eq_zero.1 h1 r hr
      have heach (l : Link) : ((markCovered g s).writeQueues.get l).order.countP (WriteRecord.coversFor g)
          = ((s.writeQueues.get l).order.filter (drainCovers g)).length := by
        rw [hqueue, ← List.countP_eq_length_filter]
        exact List.countP_congr fun r hr => by simp [hzero l r hr]
      have hsum : s.drainCount g = ((s.writeQueues.get 0).order.filter (drainCovers g)).length
          + ((s.writeQueues.get 1).order.filter (drainCovers g)).length := by
        simp [State.drainCount, List.finRange_succ]
      rw [hsum, ← heach 0, ← heach 1]
      rfl
    rw [hcount]
    simp [DrainMatches, hsome]
  · refine (show DrainMatches _ _ from ?_)
    have hcount : ((markCovered h s).modHost h fun hs =>
        { hs with drain := some { counter := c, covered := s.drainCount h, failed := 0 } }).coveredCount g = s.coveredCount g :=
      State.coveredCount_of_eq g fun l => (hqueue l g).trans (by simp [hg])
    have hdrain : (((markCovered h s).modHost h fun hs =>
        { hs with drain := some { counter := c, covered := s.drainCount h, failed := 0 } }).hosts.get g).drain = (s.hosts.get g).drain := by
      simp [markCovered, hg]
    rw [hcount, hdrain]
    exact hs g

/-- R63: host clearing ends the DRAIN and its covering together. -/
theorem clearWrites_match (h : Host) {s : State} (hs : s.DrainsMatch) : (clearWrites h s).DrainsMatch := by
  have hqueue (l : Link) (g : Host) : ((clearWrites h s).writeQueues.get l).order.countP (WriteRecord.coversFor g)
      = (s.writeQueues.get l).order.countP fun r => !decide (g = h) && r.coversFor g := by
    rw [clearWrites_writeQueues, WriteQueue.clear, List.countP_map, List.countP_filter]
    refine List.countP_congr fun r _ => ?_
    simp only [Function.comp_apply, WriteRecord.coversFor, clearable]
    by_cases hr : r.origin = h
    · by_cases hg : g = h
      · simp [hr, hg]
      · simp [hr, hg, Ne.symm hg]
    · by_cases hg : g = h
      · simp [hr, hg]
      · simp [hr, hg]
  intro g
  by_cases hg : g = h
  · subst hg
    have hzero : (clearWrites g s).coveredCount g = 0 := by
      simp [State.coveredCount, hqueue]
    rw [hzero]
    simp [DrainMatches, clearWrites]
  · have hcount : (clearWrites h s).coveredCount g = s.coveredCount g :=
      State.coveredCount_of_eq g fun l => (hqueue l g).trans (by simp [hg])
    have hdrain : ((clearWrites h s).hosts.get g).drain = (s.hosts.get g).drain := by simp [clearWrites, hg]
    rw [hcount, hdrain]
    exact hs g

theorem Touch.drain {s t : State} (ht : Touch s t) (h : Host) : (t.hosts.get h).drain = (s.hosts.get h).drain := by
  cases ht with
  | told g b => exact ignoresEvents_drain h ..
  | kept => rfl
  | queued =>
    exact congrArg (fun hosts : Vector HostState 3 => (hosts.get h).drain)
      (queuePoll_read (g := State.hosts) (fun _ _ _ => rfl) (fun _ _ _ => rfl) ..)

theorem Touches.drain {s t : State} (ht : Touches s t) (h : Host) : (t.hosts.get h).drain = (s.hosts.get h).drain := by
  induction ht with
  | refl => rfl
  | tail _ hlast ih => exact (hlast.drain h).trans ih

/-- A change of one host's record that keeps its DRAIN. -/
theorem modHost_match {h : Host} {f : HostState → HostState} {s : State} (hf : (f (s.hosts.get h)).drain = (s.hosts.get h).drain)
    (hs : s.DrainsMatch) : (s.modHost h f).DrainsMatch := by
  refine hs.of_same (fun g => ?_) rfl
  rw [State.modHost_hosts, get_upd]
  split
  · next hg => rw [hg, hf]
  · rfl

theorem HostState.removeRead_drain (stamp : Word16) (r : EventRecord) (hs : HostState) : (hs.removeRead stamp r).drain = hs.drain := by
  unfold HostState.removeRead
  repeat' split
  all_goals rfl

theorem freeSlot_hosts (i : SlotIx) (s : State) : (freeSlot i s).hosts = s.hosts := by
  unfold freeSlot; split <;> rfl

theorem act_drainsMatch {port : Scope} {net : Bool} {s t : State} (ha : Act port net s t) (hcover : ∀ l, (s.writeQueues.get l).CoverOk)
    (hs : s.DrainsMatch) : t.DrainsMatch := by
  cases ha with
  | touch h => exact hs.of_same h.drain h.writeQueues
  | aside _ _ hwrites _ hhosts => exact hs.of_same (fun h => by rw [hhosts]) hwrites
  | retimed c p => exact hs.of_same (fun h => (retimed_touches c p s).drain h) (retimed_writeQueues ..)
  | identified _ n i c => exact hs.of_same (fun h => (recordIdentity_touches n i c s).drain h) (recordIdentity_writeQueues ..)
  | recorded h f _ hkeep => exact modHost_match (hkeep _).drain hs
  | ported _ h f _ hkeep => exact modHost_match (hkeep _).drain hs
  | removed _ h r => exact modHost_match (HostState.removeRead_drain ..) hs
  | cleared h => rw [State.modHost_modHost]; exact modHost_match rfl hs
  | aliased | unaliased => exact modHost_match rfl hs
  | suspended =>
    exact hs.of_same (fun h => by rw [suspendEntry_read (g := State.hosts) (fun _ _ _ => rfl) (fun _ _ _ => rfl)])
      (suspendEntry_writeQueues ..)
  | emptied =>
    exact hs.of_same (fun h => by rw [emptyPollQueue_read (g := State.hosts) (fun _ _ _ => rfl) (fun _ _ _ => rfl)])
      (emptyPollQueue_writeQueues ..)
  | freed => exact hs.of_same (fun h => by rw [freeSlot_hosts]) (freeSlot_writeQueues ..)
  | reserved | rereserved | dropped => exact hs.of_eq (fun _ => rfl) fun h => coveredCount_modWrites h rfl
  | taken h m r seq _ hr =>
    have hr := (hcover m).reserved r (State.reservation_mem hr).1
    refine hs.of_eq (fun _ => rfl) fun g => (coveredCount_modWrites g ?_).trans (coveredCount_modWrites g rfl)
    simp [WriteRecord.coversFor, hr]
  | lapsed h m r why seq _ hr =>
    have hr := (hcover m).reserved r (State.reservation_mem hr).1
    exact finishWrite_uncovered_match (r := { r with seq := some seq }) hr m why
      (hs.of_eq (t := dropReservation h m s) (fun _ => rfl) fun g => coveredCount_modWrites g rfl)
  | finished m r o _ hr => exact finishWrite_match o hr hs
  | restated m p st =>
    exact hs.of_eq (fun _ => rfl) fun h => coveredCount_modWrites h (countP_map_of_eq (fun r => by split <;> rfl) _)
  | clearedWrites h => exact clearWrites_match h hs
  | drained h c _ hno hsome => exact drained_match hno hsome hs
  | granted m =>
    have hhosts : (grantOne m s).hosts = s.hosts :=
      grantOne_read (g := State.hosts) (fun _ _ _ => rfl) (fun _ _ _ => rfl) (fun _ _ _ => rfl) (fun _ _ _ => rfl) ..
    refine hs.of_eq (fun h => by rw [hhosts]) fun h => ?_
    rcases (grantOne_grant m s).writeQueues with heq | ⟨r, hr, heq⟩
    · exact State.coveredCount_of_eq h fun _ => by rw [heq]
    · have hsent := countP_replace_add (WriteRecord.coversFor h) { r with state := .outstanding } (offered_some hr).1
      have hsame : WriteRecord.coversFor h { r with state := .outstanding } = r.coversFor h := rfl
      have hcount : (grantOne m s).coveredCount h = (sendWrite m r s).coveredCount h := by simp only [State.coveredCount, heq]
      rw [hcount]
      exact coveredCount_modWrites h (by rw [hsame] at hsent; exact Nat.add_right_cancel hsent)
  | writeEnded m g r w o _ _ _ hw =>
    have hs : (withdraw m g s).DrainsMatch := hs.of_same (fun _ => rfl) rfl
    exact finishWrite_match (s := withdraw m g s) o (outstanding_some hw).1 hs
  | pollEnded m g r i e f =>
    exact hs.of_same (t := (withdraw m g s).modEntry i f) (fun _ => rfl) rfl
  | _ => exact hs.of_same (fun _ => rfl) rfl

/-! ## The limits, the states and the DRAINs over every step -/

theorem resetWith_writeQueues (a : Bool) (b : BitVec 2) (c : Nat) (p : List Instr) (l : Link) :
    (State.resetWith a b c p).writeQueues.get l = { reserved := [], order := [] } := by
  simp [State.resetWith, Vector.get_eq_getElem]

theorem resetWith_request (a : Bool) (b : BitVec 2) (c : Nat) (p : List Instr) (l : Link) (t : Tag) :
    (State.resetWith a b c p).request l t = none := by
  simp [State.request, State.resetWith, Arbiter.reset, Vector.get_eq_getElem]

theorem resetWith_writeQueuesOk (a : Bool) (b : BitVec 2) (c : Nat) (p : List Instr) :
    (State.resetWith a b c p).writeQueuesOk := fun l => by
  rw [resetWith_writeQueues]
  simp [WriteQueue.count, WriteQueue.countOf]

theorem resetWith_outstandingOk (a : Bool) (b : BitVec 2) (c : Nat) (p : List Instr) :
    (State.resetWith a b c p).outstandingOk := fun l => by
  rw [resetWith_writeQueues]
  simp [resetWith_request]

theorem resetWith_drainsOk (a : Bool) (b : BitVec 2) (c : Nat) (p : List Instr) : (State.resetWith a b c p).drainsOk := by
  have hhost (h : Host) : (State.resetWith a b c p).hosts.get h = HostState.reset := by simp [resetWith_hosts]
  refine ⟨fun l => ?_, fun h => ?_⟩ <;> simp [resetWith_writeQueues, hhost, HostState.reset]

/-- Settles O7: each change keeps each of the three invariants. -/
theorem writeQueueLimitsKept : Obligations.WriteQueueLimitsKept := by
  refine ⟨step_keeps resetWith_writeQueuesOk fun _ _ => writeQueuesOk_act, step_keeps resetWith_outstandingOk fun s t ha hs => ?_,
    step_keeps resetWith_drainsOk fun s t ha hs => ?_⟩
  · obtain ⟨hstates, hmatched⟩ := s.outstandingOk_iff.1 hs
    exact t.outstandingOk_iff.2 ⟨act_statesOk ha hstates, act_writesMatched ha hstates hmatched⟩
  · obtain ⟨hcover, hmatch⟩ := s.drainsOk_iff.1 hs
    exact t.drainsOk_iff.2 ⟨act_coverOk ha hcover, act_drainsMatch ha hcover hmatch⟩

end Sys2Proof.Machine

/-!
# Granting (sections 3.3, 7.1 and 7.2)
-/

namespace Sys2Proof.Machine

set_option Elab.async false

/-- Settles O15: what the first match of a search is. -/
theorem offeredWriteIsOldest : Obligations.OfferedWriteIsOldest := by
  intro q free
  have hfree (r : WriteRecord) :
      (decide (r.state = .queued) && !(q.order.any fun x => decide (x.node = r.node ∧ x.state = .outstanding))) = true ↔ free r := by
    simp [free]
  constructor
  · intro r
    rw [WriteQueue.offered, List.find?_eq_some_iff_append]
    constructor
    · rintro ⟨hr, older, younger, horder, hnone⟩
      exact ⟨older, younger, horder, (hfree r).1 hr, fun x hx hp => by
        have hx := hnone x hx
        rw [(hfree x).2 hp] at hx
        exact absurd hx (by simp)⟩
    · rintro ⟨older, younger, horder, hr, hnone⟩
      exact ⟨(hfree r).2 hr, older, younger, horder, fun x hx => by
        rw [Bool.not_eq_true', ← Bool.not_eq_true, hfree]; exact hnone x hx⟩
  · rw [WriteQueue.offered, List.find?_eq_none]
    exact forall₂_congr fun x _ => not_congr (hfree x)

/-! ## When a class is eligible, and who is served -/

theorem State.writeEligible_iff (s : State) (l : Link) :
    s.writeEligible l = true ↔ s.linkState l = .up ∧ ∃ r, (s.writeQueues.get l).offered = some r := by
  simp [State.writeEligible, Option.isSome_iff_exists]

theorem State.readEligible_iff (s : State) (l : Link) :
    s.readEligible l = true ↔
      ((s.linkState l = .enumerating ∨ s.linkState l = .up) ∧ (s.arbiters.get l).idents ≠ [])
      ∨ (s.linkState l = .up ∧ ((s.arbiters.get l).fetches ≠ [] ∨ s.pollQueues.get l ≠ [])) := by
  unfold State.readEligible
  cases s.linkState l <;> simp
  tauto

/-- No tag is free, or no class is eligible. -/
def State.Stuck (s : State) (l : Link) : Prop :=
  (s.arbiters.get l).lowestFree = none ∨ (s.writeEligible l = false ∧ s.readEligible l = false)

theorem grantOne_of_stuck {s : State} {l : Link} (h : s.Stuck l) : grantOne l s = s := by
  unfold grantOne
  rcases h with h | ⟨hwrite, hread⟩
  · rw [h]
  · split
    · rfl
    · simp [hwrite, hread]

section
variable {l : Link} {t : Tag} {s : State} (hfree : (s.arbiters.get l).lowestFree = some t)
include hfree

/-- The write class is served when it alone is eligible or the mark names it. -/
theorem grantOne_write {r : WriteRecord} (hup : s.linkState l = .up) (hr : (s.writeQueues.get l).offered = some r)
    (hturn : s.readEligible l = true → (s.arbiters.get l).nextClass = .write) :
    grantOne l s = grantTag l t .write (newRequest .write r.node r.address r.data.length) (sendWrite l r s) := by
  have hwrite : s.writeEligible l = true := (s.writeEligible_iff l).2 ⟨hup, r, hr⟩
  have hmine : (s.writeEligible l && (!s.readEligible l || decide ((s.arbiters.get l).nextClass = .write))) = true := by
    cases hread : s.readEligible l with
    | false => simp [hwrite]
    | true => simp [hwrite, hturn hread]
  simp only [grantOne, hfree, hmine, if_true, serveWrite, hr]

/-- The read class is served when it alone is eligible or the mark names it. -/
theorem grantOne_read_class (hread : s.readEligible l = true)
    (hturn : s.writeEligible l = true → (s.arbiters.get l).nextClass = .read) : grantOne l s = serveRead l t s := by
  have hmine : (s.writeEligible l && (!s.readEligible l || decide ((s.arbiters.get l).nextClass = .write))) = false := by
    cases hwrite : s.writeEligible l with
    | false => rfl
    | true => simp [hread, hturn hwrite]
  simp only [grantOne, hfree]
  rw [hmine, hread]
  rfl

end

theorem serveRead_ident {l : Link} {t : Tag} {s : State} {n : Node} {rest : List Node} (h : (s.arbiters.get l).idents = n :: rest) :
    serveRead l t s = grantTag l t .read (newRequest .ident n 0 8) (s.modArbiter l fun a => { a with idents := rest }) := by
  simp only [serveRead, h]

theorem serveRead_fetch {l : Link} {t : Tag} {s : State} {f : FetchItem} {rest : List FetchItem} (hidents : (s.arbiters.get l).idents = [])
    (h : (s.arbiters.get l).fetches = f :: rest) :
    serveRead l t s = grantTag l t .read (newRequest (.fetch f.host f.ticket f.reported) f.node f.address f.length)
      (s.modArbiter l fun a => { a with fetches := rest }) := by
  simp only [serveRead, hidents, h]

theorem serveRead_poll {l : Link} {t : Tag} {s : State} {item : PollItem} {rest : List PollItem} {e : Entry}
    (hidents : (s.arbiters.get l).idents = []) (hfetches : (s.arbiters.get l).fetches = [])
    (h : s.pollQueues.get l = item :: rest) (he : s.entry item.slot = some e) :
    serveRead l t s = grantTag l t .read (newRequest (.poll item.slot item.generation e.epoch) e.node e.first e.length)
      ((s.modPolls l fun _ => rest).modEntry item.slot fun e => { e with phase := .inFlight }) := by
  have he' : (s.modPolls l fun _ => rest).entry item.slot = some e := he
  simp only [serveRead, hidents, hfetches, servePoll, h, he']

theorem State.modArbiter_modArbiter (l : Link) (f g : Arbiter → Arbiter) (s : State) :
    (s.modArbiter l f).modArbiter l g = s.modArbiter l fun a => g (f a) := by
  simp [State.modArbiter, upd_upd]

theorem replace_append_of_not_mem {α : Type} [BEq α] [LawfulBEq α] {a b : α} {older younger : List α} (h : a ∉ older) :
    (older ++ a :: younger).replace a b = older ++ b :: younger := by
  rw [List.replace_append, if_neg h, List.replace_cons_self]

/-- Settles O14: the branches of one grant, and the change that each makes. -/
theorem grantServesClassesInTurn : Obligations.GrantServesClassesInTurn := by
  intro l s
  refine ⟨s.writeEligible_iff l, s.readEligible_iff l, fun hlink => grantOne_of_stuck (.inr ?_), grantOne_of_stuck, fun t hfree => ?_⟩
  · rcases hlink with h | h | h <;> simp [State.writeEligible, State.readEligible, h]
  · intro made fresh
    refine ⟨(lowestFree_some hfree).1, (lowestFree_some hfree).2, fun r older younger hup hr horder hnot hturn => ?_,
      fun hread hturn => ⟨fun n rest hidents => ?_, fun f rest hidents hfetches => ?_, fun item rest e hidents hfetches hpolls he => ?_⟩⟩
    · have hsent : sendWrite l r s = s.modWrites l fun q =>
          { q with order := older ++ { r with state := .outstanding } :: younger } := by
        refine congrArg (fun queues => { s with writeQueues := queues }) (upd_congr _ _ ?_)
        simp only [horder, replace_append_of_not_mem hnot]
      rw [grantOne_write hfree hup hr hturn, hsent]
      rfl
    · rw [grantOne_read_class hfree hread hturn, serveRead_ident hidents, grantTag, State.modArbiter_modArbiter]
      rfl
    · rw [grantOne_read_class hfree hread hturn, serveRead_fetch hidents hfetches, grantTag, State.modArbiter_modArbiter]
      rfl
    · rw [grantOne_read_class hfree hread hturn, serveRead_poll hidents hfetches hpolls he]
      rfl

/-! ## Granting to the end -/

/-- The tags in use on link `l`. -/
def State.tagsInUse (s : State) (l : Link) : Nat := s.inFlight (fun _ => true) l

theorem State.tagsInUse_le (s : State) (l : Link) : s.tagsInUse l ≤ 8 :=
  (List.length_filter_le _ _).trans (List.length_finRange).le

theorem grantTag_tagsInUse {l : Link} {t : Tag} {s : State} (hfree : s.request l t = none) (c : RequestClass) (r : Request) :
    (grantTag l t c r s).tagsInUse l = s.tagsInUse l + 1 :=
  (grantTag_inFlight hfree c r (fun _ => true) l).trans (by rw [if_pos rfl]; rfl)

/-- The read class is served to a tag, as the poll queue's items have entries. -/
theorem serveRead_tagsInUse {l : Link} {t : Tag} {s : State} (hs : s.entriesOk) (hnone : s.request l t = none)
    (hread : s.readEligible l = true) : (serveRead l t s).tagsInUse l = s.tagsInUse l + 1 := by
  have hwaits {f : Arbiter → Arbiter} (hf : ∀ a, (f a).tags = a.tags) (r : Request) :
      (grantTag l t .read r (s.modArbiter l f)).tagsInUse l = s.tagsInUse l + 1 := by
    rw [grantTag_tagsInUse ((modArbiter_request_of_tags hf s l t).trans hnone), State.tagsInUse, inFlight_of_tags hf]
    rfl
  cases hidents : (s.arbiters.get l).idents with
  | cons n rest => rw [serveRead_ident hidents]; exact hwaits (by exact fun _ => rfl) _
  | nil =>
    cases hfetches : (s.arbiters.get l).fetches with
    | cons f rest => rw [serveRead_fetch hidents hfetches]; exact hwaits (by exact fun _ => rfl) _
    | nil =>
      cases hpolls : s.pollQueues.get l with
      | nil =>
        have := (s.readEligible_iff l).1 hread
        simp [hidents, hfetches, hpolls] at this
      | cons item rest =>
        obtain ⟨e, he, -⟩ := hs.2 l item (by simp [hpolls])
        rw [serveRead_poll hidents hfetches hpolls he]
        exact grantTag_tagsInUse (s := (s.modPolls l fun _ => rest).modEntry item.slot fun e => { e with phase := .inFlight }) hnone ..

/-- With a free tag and an eligible class one more tag comes into use. -/
theorem grantOne_tagsInUse {l : Link} {s : State} (hs : s.entriesOk) (hgo : ¬ s.Stuck l) :
    (grantOne l s).tagsInUse l = s.tagsInUse l + 1 := by
  simp only [State.Stuck, not_or, not_and_or, Bool.not_eq_false] at hgo
  obtain ⟨hfree, hclass⟩ := hgo
  obtain ⟨t, hfree⟩ := Option.ne_none_iff_exists'.1 hfree
  have hnone : s.request l t = none := (lowestFree_some hfree).1
  have hwritten (hwrite : s.writeEligible l = true) (hturn : s.readEligible l = true → (s.arbiters.get l).nextClass = .write) :
      (grantOne l s).tagsInUse l = s.tagsInUse l + 1 := by
    obtain ⟨hup, r, hr⟩ := (s.writeEligible_iff l).1 hwrite
    rw [grantOne_write hfree hup hr hturn]
    exact grantTag_tagsInUse (s := sendWrite l r s) hnone ..
  have hserved (hread : s.readEligible l = true) (hturn : s.writeEligible l = true → (s.arbiters.get l).nextClass = .read) :
      (grantOne l s).tagsInUse l = s.tagsInUse l + 1 := by
    rw [grantOne_read_class hfree hread hturn]
    exact serveRead_tagsInUse hs hnone hread
  cases hnext : (s.arbiters.get l).nextClass with
  | write =>
    cases hwrite : s.writeEligible l with
    | true => exact hwritten hwrite fun _ => hnext
    | false => exact hserved (hclass.resolve_left (by simp [hwrite])) (by simp [hwrite])
  | read =>
    cases hread : s.readEligible l with
    | true => exact hserved hread fun _ => hnext
    | false => exact hwritten (hclass.resolve_right (by simp [hread])) (by simp [hread])

/-- Entries as before but for the phase, and no more items in the poll queues. -/
theorem entriesOk_of_phase {s u : State} (hnodes : u.nodes = s.nodes) {i : SlotIx} {p : PollPhase}
    (hentry : ∀ j, u.entry j = if j = i then (s.entry i).map fun e => { e with phase := p } else s.entry j)
    (hpolls : ∀ l, ∀ x ∈ u.pollQueues.get l, x ∈ s.pollQueues.get l) (hs : s.entriesOk) : u.entriesOk := by
  have hpresence (n : Node) : u.presence n = s.presence n := by simp [State.presence, hnodes]
  refine ⟨fun j e he hne => ?_, fun l x hx => ?_⟩
  · rw [hpresence]
    rw [hentry] at he
    split at he
    · obtain ⟨e', he', rfl⟩ := Option.map_eq_some_iff.1 he
      exact hs.1 i e' he' hne
    · exact hs.1 j e he hne
  · obtain ⟨e, he, hnode, hne⟩ := hs.2 l x (hpolls l x hx)
    have he : s.entry x.slot = some e := he
    rw [hentry]
    split
    · next hx =>
      rw [← hx]
      exact ⟨{ e with phase := p }, by rw [he]; rfl, hnode, hne⟩
    · exact ⟨e, he, hnode, hne⟩

theorem mem_modPolls_tail {l : Link} {s : State} {item : PollItem} {rest : List PollItem} (h : s.pollQueues.get l = item :: rest)
    (m : Link) (x : PollItem) (hx : x ∈ (s.modPolls l fun _ => rest).pollQueues.get m) : x ∈ s.pollQueues.get m := by
  rw [State.modPolls_pollQueues, get_upd] at hx
  split at hx
  · next hm => rw [hm, h]; exact List.mem_cons_of_mem _ hx
  · exact hx

theorem grant_entriesOk {l : Link} {s u : State} (hg : Grant l s u) (hs : s.entriesOk) : u.entriesOk := by
  cases hg with
  | none | write | ident | fetch => exact hs
  | poll t item rest e hfree hup hidents hfetches hpolls he =>
    refine entriesOk_of_phase (s := s) rfl (i := item.slot) (p := .inFlight) (fun j => ?_) (mem_modPolls_tail hpolls) hs
    exact State.modEntry_entry (s := s.modPolls l fun _ => rest) ..
  | dropped item rest hpolls he =>
    obtain ⟨e, he', -⟩ := hs.2 l item (by simp [hpolls])
    exact absurd he' (by simp [he])

/-- With `k` grants either the link is stuck, or `k` more tags are in use. -/
theorem repeat_grantOne (l : Link) (s : State) (hs : s.entriesOk) (k : Nat) :
    (Nat.repeat (grantOne l) k s).entriesOk
    ∧ ((Nat.repeat (grantOne l) k s).Stuck l ∨ (Nat.repeat (grantOne l) k s).tagsInUse l = s.tagsInUse l + k) := by
  induction k with
  | zero => exact ⟨hs, .inr rfl⟩
  | succ k ih =>
    obtain ⟨hok, hgoing⟩ := ih
    refine ⟨grant_entriesOk (grantOne_grant ..) hok, ?_⟩
    rw [Nat.repeat]
    by_cases hstuck : (Nat.repeat (grantOne l) k s).Stuck l
    · exact .inl ((grantOne_of_stuck hstuck).symm ▸ hstuck)
    · exact .inr ((grantOne_tagsInUse hok hstuck).trans (congrArg (· + 1) (hgoing.resolve_left hstuck)))

/-- With no tag free nothing is granted. -/
theorem stuck_of_tagsInUse {l : Link} {s : State} (h : 8 ≤ s.tagsInUse l) : s.Stuck l := by
  cases hfree : (s.arbiters.get l).lowestFree with
  | none => exact .inl hfree
  | some t =>
    have hmore := grantTag_tagsInUse (s := s) (l := l) (lowestFree_some hfree).1 .read (newRequest .ident 0 0 8)
    have := State.tagsInUse_le (grantTag l t .read (newRequest .ident 0 0 8) s) l
    omega

/-- R113: eight grants are enough. -/
theorem repeat_grantOne_stuck {l : Link} {s : State} (hs : s.entriesOk) {k : Nat} (hk : 8 ≤ k) :
    (Nat.repeat (grantOne l) k s).Stuck l := by
  rcases (repeat_grantOne l s hs k).2 with h | h
  · exact h
  · have hall : 8 ≤ (Nat.repeat (grantOne l) k s).tagsInUse l := by rw [h]; exact hk.trans (Nat.le_add_left ..)
    exact stuck_of_tagsInUse hall

theorem grantLink_eq_repeat (l : Link) (s : State) : grantLink l s = Nat.repeat (grantOne l) 8 s := by
  simp only [grantLink, Nat.repeat]

theorem repeat_grantOne_eq {l : Link} {s : State} (hs : s.entriesOk) {k : Nat} (hk : 8 ≤ k) :
    Nat.repeat (grantOne l) k s = grantLink l s := by
  induction k, hk using Nat.le_induction with
  | base => rw [grantLink_eq_repeat]
  | succ k hk ih => rw [Nat.repeat, grantOne_of_stuck (repeat_grantOne_stuck hs hk), ih]

/-- What one link's granting needs is not changed by the other's. -/
theorem stuck_of_eq {l : Link} {s u : State} (harbiter : u.arbiters.get l = s.arbiters.get l) (hlinks : u.links = s.links)
    (hwrites : u.writeQueues.get l = s.writeQueues.get l) (hpolls : u.pollQueues.get l = s.pollQueues.get l) (h : s.Stuck l) :
    u.Stuck l := by
  have hlink : u.linkState l = s.linkState l := by simp [State.linkState, hlinks]
  have hwrite : u.writeEligible l = s.writeEligible l := by simp [State.writeEligible, hlink, hwrites]
  have hread : u.readEligible l = s.readEligible l := by simp [State.readEligible, hlink, harbiter, hpolls]
  rw [State.Stuck, harbiter, hwrite, hread]
  exact h

theorem grant_stuck_other {l m : Link} (hm : l ≠ m) {s u : State} (hg : Grant m s u) (h : s.Stuck l) : u.Stuck l := by
  cases hg with
  | none => exact h
  | _ => exact stuck_of_eq (s := s) (by simp [grantTag, sendWrite, hm]) rfl (by simp [grantTag, sendWrite, hm]) (by simp [grantTag, sendWrite, hm]) h

theorem repeat_stuck_other {l m : Link} (hm : l ≠ m) (k : Nat) {s : State} (h : s.Stuck l) :
    (Nat.repeat (grantOne m) k s).Stuck l := by
  induction k with
  | zero => exact h
  | succ k ih => exact grant_stuck_other hm (grantOne_grant ..) ih

/-- Settles O13: each grant takes a tag, and a link that is stuck stays stuck while the other's arbiter grants. -/
theorem grantingGoesOn : Obligations.GrantingGoesOn := by
  refine ⟨fun s => by rw [grants, grantLink_eq_repeat, grantLink_eq_repeat], fun s hs => ?_⟩
  have hafter : (grantLink 0 s).entriesOk := by rw [grantLink_eq_repeat]; exact (repeat_grantOne 0 s hs 8).1
  have hstuck (l : Link) : (grants s).Stuck l := by
    rw [grants, grantLink_eq_repeat 1]
    match l with
    | 0 => exact repeat_stuck_other (by decide) 8 (grantLink_eq_repeat 0 s ▸ repeat_grantOne_stuck hs (Nat.le_refl 8))
    | 1 => exact repeat_grantOne_stuck hafter Nat.le.refl
  refine ⟨fun k hk => ?_, fun l => ⟨grantOne_of_stuck (hstuck l), hstuck l⟩⟩
  rw [repeat_grantOne_eq hs hk, repeat_grantOne_eq hafter hk]
  rfl

end Sys2Proof.Machine

/-!
# Rules about one slot, and loops over the slots

A rule about one slot changes that slot, the hosts it tells, and the poll queues; a loop over the slots is then read off slot by
slot.
-/

namespace Sys2Proof.Machine

set_option Elab.async false

/-! ## Everything but slots, poll queues and hosts -/

/-- Everything but the slots, the poll queues and the hosts' records is the same. -/
def State.SameAside (s t : State) : Prop := t = { s with slots := t.slots, pollQueues := t.pollQueues, hosts := t.hosts }

namespace State.SameAside

theorem refl (s : State) : s.SameAside s := rfl

theorem trans {s u t : State} (h : s.SameAside u) (h' : u.SameAside t) : s.SameAside t := by
  rw [SameAside] at *
  rw [h'] 
  rw [h]

/-- A read that slots, poll queues and hosts have no part in. -/
theorem read {α : Type} {g : State → α} (hg : ∀ (s : State) a b c, g { s with slots := a, pollQueues := b, hosts := c } = g s)
    {s t : State} (h : s.SameAside t) : g t = g s := by
  rw [SameAside] at h
  rw [h, hg]

theorem timeBase {s t : State} (h : s.SameAside t) : t.timeBase = s.timeBase := h.read (g := State.timeBase) fun _ _ _ _ => rfl

theorem nodes {s t : State} (h : s.SameAside t) : t.nodes = s.nodes := h.read (g := State.nodes) fun _ _ _ _ => rfl

theorem periods {s t : State} (h : s.SameAside t) : t.periods = s.periods := h.read (g := State.periods) fun _ _ _ _ => rfl

theorem pastLimit {s t : State} (h : s.SameAside t) (e : Entry) : t.pastLimit e = s.pastLimit e :=
  h.read (g := fun s => s.pastLimit e) fun _ _ _ _ => rfl

theorem ticksNow {s t : State} (h : s.SameAside t) (e : Entry) : t.ticksNow e = s.ticksNow e :=
  h.read (g := fun s => s.ticksNow e) fun _ _ _ _ => rfl

theorem maxLength {s t : State} (h : s.SameAside t) (n : Node) : t.maxLength n = s.maxLength n :=
  h.read (g := fun s => s.maxLength n) fun _ _ _ _ => rfl

end State.SameAside

/-! ## A rule about one slot -/

/-- Slot `i` becomes `sl`, a host's record what `H` makes of it, a poll queue what `P` makes of it, and nothing else changes. -/
structure SlotEffect (s t : State) (i : SlotIx) (sl : Slot) (H : Host → HostState → HostState)
    (P : Link → List PollItem → List PollItem) : Prop where
  slot : t.slots.get i = sl
  others : ∀ j, j ≠ i → t.slots.get j = s.slots.get j
  hosts : ∀ h, t.hosts.get h = H h (s.hosts.get h)
  polls : ∀ l, t.pollQueues.get l = P l (s.pollQueues.get l)
  aside : s.SameAside t

namespace SlotEffect

theorem refl (s : State) (i : SlotIx) : SlotEffect s s i (s.slots.get i) (fun _ hs => hs) (fun _ q => q) :=
  ⟨rfl, fun _ _ => rfl, fun _ => rfl, fun _ => rfl, .refl s⟩

theorem trans {s u t : State} {i : SlotIx} {sl sl' : Slot} {H H' : Host → HostState → HostState}
    {P P' : Link → List PollItem → List PollItem} (h : SlotEffect s u i sl H P) (h' : SlotEffect u t i sl' H' P') :
    SlotEffect s t i sl' (fun g hs => H' g (H g hs)) (fun l q => P' l (P l q)) where
  slot := h'.slot
  others j hj := (h'.others j hj).trans (h.others j hj)
  hosts g := by rw [h'.hosts, h.hosts]
  polls l := by rw [h'.polls, h.polls]
  aside := h.aside.trans h'.aside

/-- The same effect, said in other words. -/
theorem congr {s t : State} {i : SlotIx} {sl sl' : Slot} {H H' : Host → HostState → HostState}
    {P P' : Link → List PollItem → List PollItem} (h : SlotEffect s t i sl H P) (hsl : sl' = sl) (hH : ∀ g hs, H' g hs = H g hs)
    (hP : ∀ l q, P' l q = P l q) : SlotEffect s t i sl' H' P' where
  slot := h.slot.trans hsl.symm
  others := h.others
  hosts g := (h.hosts g).trans (hH g _).symm
  polls l := (h.polls l).trans (hP l _).symm
  aside := h.aside

theorem entry {s t : State} {i : SlotIx} {sl : Slot} {H : Host → HostState → HostState} {P : Link → List PollItem → List PollItem}
    (h : SlotEffect s t i sl H P) : t.entry i = sl.entry := by rw [State.entry, h.slot]

theorem entry_other {s t : State} {i j : SlotIx} {sl : Slot} {H : Host → HostState → HostState}
    {P : Link → List PollItem → List PollItem} (h : SlotEffect s t i sl H P) (hj : j ≠ i) : t.entry j = s.entry j := by
  rw [State.entry, h.others j hj, State.entry]

theorem modSlot (s : State) (i : SlotIx) (f : Slot → Slot) :
    SlotEffect s (s.modSlot i f) i (f (s.slots.get i)) (fun _ hs => hs) (fun _ q => q) :=
  ⟨by simp, fun j hj => by simp [hj], fun _ => rfl, fun _ => rfl, rfl⟩

theorem modEntry_map (s : State) (i : SlotIx) (f : Entry → Entry) :
    SlotEffect s (s.modEntry i f) i { s.slots.get i with entry := (s.slots.get i).entry.map f } (fun _ hs => hs) (fun _ q => q) :=
  modSlot s i _

theorem modEntry {s : State} {i : SlotIx} {e : Entry} (he : s.entry i = some e) (f : Entry → Entry) :
    SlotEffect s (s.modEntry i f) i { s.slots.get i with entry := some (f e) } (fun _ hs => hs) (fun _ q => q) := by
  have he : (s.slots.get i).entry = some e := he
  exact (modSlot s i _).congr (by rw [he]; rfl) (fun _ _ => rfl) fun _ _ => rfl

end SlotEffect

/-! ## The rules an owner uses on one entry -/

/-- A loop over the hosts is the rule for each of the three. -/
theorem forHosts_eq (f : Host → State → State) (s : State) : forHosts f s = f 2 (f 1 (f 0 s)) := by
  simp [forHosts, List.finRange_succ]

/-- One host's part of an entry event (R27). -/
def tellHolder (i : SlotIx) (k : EventKind) (why : Reason) (h : Host) (s : State) : State :=
  match s.entry i with
  | none => s
  | some e => if e.heldBy h then notify h (eventOf k (byteOf i.val) why.code 0) s else s

theorem entryEvent_eq (i : SlotIx) (k : EventKind) (why : Reason) (s : State) :
    entryEvent i k why s = tellHolder i k why 2 (tellHolder i k why 1 (tellHolder i k why 0 s)) := forHosts_eq ..

/-- The zone that a watch of the entry has moved to, with its holder told unless it was UNKNOWN and is INSIDE (R165). -/
theorem evaluateWatch_eq {i : SlotIx} {h : Host} {s : State} {e : Entry} {r : Holder} {w : Watch} (he : s.entry i = some e)
    (hr : e.holders.get h = some r) (hw : r.watch = some w) :
    evaluateWatch i h s =
      let zone := w.zoneOf (numberOf (e.data.filterMap id))
      let moved := s.modEntry i (Entry.modHolder h fun _ => some { r with watch := some { w with zone := zone } })
      if !e.hasData || decide (zone = w.zone) then s
      else if w.zone = .unknown ∧ zone = .inside then moved
      else notify h (eventOf .watch (byteOf i.val) w.zone.code (zone.code.setWidth 16)) moved := by
  simp only [evaluateWatch, he, hr, hw]

/-- A holder without a watch sees nothing (R165). -/
theorem evaluateWatch_of_none {i : SlotIx} {h : Host} {s : State} (hno : ∀ e ∈ s.entry i, ∀ r ∈ e.holders.get h, r.watch = none) :
    evaluateWatch i h s = s := by
  unfold evaluateWatch
  split
  · rfl
  · next e he =>
    split
    · rfl
    · next r hr => simp only [hno e he r hr]

/-- The record of a host after an event of entry `e` in slot `i`: each holder is told. -/
def Entry.tells (e : Entry) (stamp : Word16) (i : SlotIx) (k : EventKind) (why : Reason) (h : Host) (hs : HostState) : HostState :=
  if e.heldBy h then hs.receive stamp (eventOf k (byteOf i.val) why.code 0) else hs

/-- The zone of the entry's data against a watch's band; without data the zone stays (R165). -/
def Entry.zoneFor (e : Entry) (w : Watch) : Zone := if e.hasData then w.zoneOf (numberOf (e.data.filterMap id)) else w.zone

/-- A holder record whose watch has been evaluated against the entry's data. -/
def Entry.judge (e : Entry) (r : Holder) : Holder := { r with watch := r.watch.map fun w => { w with zone := e.zoneFor w } }

/-- The record of a host whose watch on entry `e` has been evaluated. -/
def Entry.tellsWatch (e : Entry) (stamp : Word16) (i : SlotIx) (h : Host) (hs : HostState) : HostState :=
  match (e.holders.get h).bind Holder.watch with
  | none => hs
  | some w =>
    if e.zoneFor w = w.zone ∨ (w.zone = .unknown ∧ e.zoneFor w = .inside) then hs
    else hs.receive stamp (eventOf .watch (byteOf i.val) w.zone.code ((e.zoneFor w).code.setWidth 16))

/-- The entry after a rule has asked for a poll of it (R8). -/
def Entry.asked (e : Entry) : Entry := if e.phase = .idle ∧ e.pollable = true then { e with phase := .queued } else e

/-- The entry after all its watches have been evaluated. -/
def Entry.judged (e : Entry) : Entry := { e with holders := Vector.ofFn fun h => (e.holders.get h).map e.judge }

namespace SlotEffect

/-- One host is told. -/
theorem notify (h : Host) (b : EventBody) (i : SlotIx) (s : State) :
    SlotEffect s (notify h b s) i (s.slots.get i) (fun g hs => if g = h then hs.receive (low16 s.timeBase) b else hs) (fun _ q => q) where
  slot := rfl
  others _ _ := rfl
  hosts g := by
    simp only [Machine.notify, State.modHost_hosts, get_upd]
    split
    · next hg => rw [hg]
    · rfl
  polls _ := rfl
  aside := rfl

/-- R27: an entry event reaches each holder, once. -/
theorem entryEvent {s : State} {i : SlotIx} {e : Entry} (he : s.entry i = some e) (k : EventKind) (why : Reason) :
    SlotEffect s (entryEvent i k why s) i (s.slots.get i) (e.tells (low16 s.timeBase) i k why) (fun _ q => q) := by
  have hone (h : Host) {u : State} (hu : s.SameAside u) (hslot : u.slots.get i = s.slots.get i) :
      SlotEffect u (tellHolder i k why h u) i (s.slots.get i)
        (fun g hs => if g = h then e.tells (low16 s.timeBase) i k why g hs else hs) (fun _ q => q) := by
    have hentry : u.entry i = some e := by rw [State.entry, hslot]; exact he
    simp only [tellHolder, hentry]
    split
    · next hheld =>
      refine (notify h _ i u).congr hslot.symm (fun g hs => ?_) fun _ _ => rfl
      split
      · next hg => simp [Entry.tells, hg, hheld, hu.timeBase]
      · rfl
    · next hheld =>
      refine (refl u i).congr hslot.symm (fun g hs => ?_) fun _ _ => rfl
      split
      · next hg => simp [Entry.tells, hg, hheld]
      · rfl
  have h0 := hone 0 (.refl s) rfl
  have h1 := hone 1 h0.aside h0.slot
  have h2 := hone 2 (h0.aside.trans h1.aside) h1.slot
  rw [entryEvent_eq]
  refine ((h0.trans h1).trans h2).congr rfl (fun g hs => ?_) fun _ _ => rfl
  match g with
  | 0 => rfl
  | 1 => rfl
  | 2 => rfl

/-- R165: one holder's watch. -/
theorem evaluateWatch {s : State} {i : SlotIx} {e : Entry} (he : s.entry i = some e) (h : Host) :
    SlotEffect s (evaluateWatch i h s) i { s.slots.get i with entry := some (e.modHolder h (Option.map e.judge)) }
      (fun g hs => if g = h then e.tellsWatch (low16 s.timeBase) i h hs else hs) (fun _ q => q) := by
  have hslot : (s.slots.get i).entry = some e := he
  have hkeep (hj : (e.holders.get h).map e.judge = e.holders.get h)
      (hq : ∀ hs, e.tellsWatch (low16 s.timeBase) i h hs = hs) :
      SlotEffect s s i { s.slots.get i with entry := some (e.modHolder h (Option.map e.judge)) }
        (fun g hs => if g = h then e.tellsWatch (low16 s.timeBase) i h hs else hs) (fun _ q => q) := by
    refine (refl s i).congr ?_ (fun g hs => by split <;> simp [hq]) fun _ _ => rfl
    have hsame : e.modHolder h (Option.map e.judge) = e := by
      simp only [Entry.modHolder]
      rw [upd_congr e.holders h (g := fun r => r) hj, upd_id]
    rw [hsame, ← hslot]
  cases hr : e.holders.get h with
  | none =>
    rw [evaluateWatch_of_none fun x hx r hxr => absurd hxr (by obtain rfl : e = x := by simpa [he] using hx
                                                               simp [hr])]
    exact hkeep (by simp [hr]) fun hs => by simp [Entry.tellsWatch, hr]
  | some r =>
    cases hw : r.watch with
    | none =>
      rw [evaluateWatch_of_none fun x hx y hy => by
        obtain rfl : e = x := by simpa [he] using hx
        obtain rfl : r = y := by simpa [hr] using hy
        exact hw]
      refine hkeep ?_ fun hs => by simp [Entry.tellsWatch, hr, hw]
      rw [hr, Option.map_some, Entry.judge, hw, Option.map_none, ← hw]
    | some w =>
      have hbind : (e.holders.get h).bind Holder.watch = some w := by simp [hr, hw]
      rw [evaluateWatch_eq he hr hw]
      dsimp only
      by_cases hdata : e.hasData = true
      · have hzone : e.zoneFor w = w.zoneOf (numberOf (e.data.filterMap id)) := if_pos hdata
        rw [← hzone]
        have hmoved := modEntry he (Entry.modHolder h fun _ => some { r with watch := some { w with zone := e.zoneFor w } })
        have hentry : e.modHolder h (fun _ => some { r with watch := some { w with zone := e.zoneFor w } })
            = e.modHolder h (Option.map e.judge) := by
          simp only [Entry.modHolder]
          rw [upd_congr e.holders h (g := Option.map e.judge) (by simp [hr, Entry.judge, hw])]
        rw [hentry] at hmoved
        by_cases hsame : e.zoneFor w = w.zone
        · simp only [hdata, hsame, Bool.not_true, decide_true, Bool.or_true, if_true]
          refine hkeep ?_ fun hs => by simp [Entry.tellsWatch, hbind, hsame]
          have hwatch : { w with zone := w.zone } = w := rfl
          rw [hr, Option.map_some, Entry.judge, hw, Option.map_some, hsame, hwatch, ← hw]
        · simp only [hdata, hsame, Bool.not_true, decide_false, Bool.or_false, Bool.false_eq_true, if_false]
          split
          · next hquiet => exact hmoved.congr rfl (fun g hs => by split <;> simp [Entry.tellsWatch, hbind, hquiet]) fun _ _ => rfl
          · next hloud =>
            refine (hmoved.trans (notify ..)).congr hmoved.slot.symm (fun g hs => ?_) fun _ _ => rfl
            simp [Entry.tellsWatch, hbind, hsame, hloud]
      · have hsame : e.zoneFor w = w.zone := if_neg hdata
        simp only [Bool.not_eq_true] at hdata
        simp only [hdata, Bool.not_false, Bool.true_or, if_true]
        refine hkeep ?_ fun hs => by simp [Entry.tellsWatch, hbind, hsame]
        have hwatch : { w with zone := w.zone } = w := rfl
        rw [hr, Option.map_some, Entry.judge, hw, Option.map_some, hsame, hwatch, ← hw]

/-- R165: the watches of an entry. -/
theorem evaluateWatches {s : State} {i : SlotIx} {e : Entry} (he : s.entry i = some e) :
    SlotEffect s (evaluateWatches i s) i { s.slots.get i with entry := some e.judged } (e.tellsWatch (low16 s.timeBase) i)
      (fun _ q => q) := by
  let e0 := e.modHolder 0 (Option.map e.judge)
  let e1 := e0.modHolder 1 (Option.map e.judge)
  have h0 := evaluateWatch he 0
  have h1 := evaluateWatch (e := e0) (by rw [h0.entry]) 1
  have h2 := evaluateWatch (e := e1) (by rw [h1.entry]; rfl) 2
  have heq : Machine.evaluateWatches i s = Machine.evaluateWatch i 2 (Machine.evaluateWatch i 1 (Machine.evaluateWatch i 0 s)) :=
    forHosts_eq ..
  have hslot : e1.modHolder 2 (Option.map e1.judge) = e.judged := by
    have hjudge : e1.judge = e.judge := rfl
    rw [hjudge]
    simp only [e1, e0, Entry.modHolder, Entry.judged]
    congr 1
    refine Vector.ext fun k hk => ?_
    have hk3 : k = 0 ∨ k = 1 ∨ k = 2 := by omega
    rcases hk3 with rfl | rfl | rfl <;> simp [upd, Vector.get_eq_getElem]
  rw [heq]
  refine ((h0.trans h1).trans h2).congr ?_ (fun g hs => ?_) fun _ _ => rfl
  · rw [hslot, h1.slot, h0.slot]
  · have hother (x : Entry) (f : Option Holder → Option Holder) (g k : Host) (hg : g ≠ k) (stamp : Word16) (hs : HostState) :
        (x.modHolder k f).tellsWatch stamp i g hs = x.tellsWatch stamp i g hs := by
      have hget : (x.modHolder k f).holders.get g = x.holders.get g := by simp [Entry.modHolder, hg]
      simp only [Entry.tellsWatch, hget]
      rfl
    rw [h0.aside.timeBase, (h0.aside.trans h1.aside).timeBase]
    match g with
    | 0 => rfl
    | 1 => exact (hother e _ 1 0 (by decide) _ _).symm
    | 2 => exact ((hother e0 _ 2 1 (by decide) _ _).trans (hother e _ 2 0 (by decide) _ _)).symm

/-- R8, R36: a poll asked for. -/
theorem queuePoll {s : State} {i : SlotIx} {e : Entry} (he : s.entry i = some e) :
    SlotEffect s (queuePoll i s) i { s.slots.get i with entry := some e.asked } (fun _ hs => hs)
      (fun l q => if e.phase = .idle ∧ e.pollable = true ∧ nodeLink e.node = l then
        q ++ [{ slot := i, generation := (s.slots.get i).generation }] else q) := by
  have hslot : (s.slots.get i).entry = some e := he
  by_cases hask : e.phase = .idle ∧ e.pollable = true
  · have heq : Machine.queuePoll i s = (s.modPolls (nodeLink e.node) (· ++ [{ slot := i, generation := (s.slots.get i).generation }])).modEntry i
        fun e => { e with phase := .queued } := by
      simp only [Machine.queuePoll, he, hask, decide_true, Bool.and_true, if_true]
    have hput := modEntry (s := s.modPolls (nodeLink e.node) (· ++ [{ slot := i, generation := (s.slots.get i).generation }])) he
      fun e => { e with phase := .queued }
    rw [heq]
    exact
      { slot := by rw [hput.slot, Entry.asked, if_pos hask]; rfl
        others := hput.others
        hosts := fun _ => rfl
        polls := fun l => by
          rw [hput.polls, State.modPolls_pollQueues, get_upd]
          by_cases hl : nodeLink e.node = l
          · simp [hl, hask]
          · simp [hl, Ne.symm hl]
        aside := rfl }
  · have heq : Machine.queuePoll i s = s := by
      simp only [Machine.queuePoll, he, Bool.and_eq_true, decide_eq_true_eq, hask, if_false]
    rw [heq]
    exact (refl s i).congr (by rw [Entry.asked, if_neg hask, ← hslot]) (fun _ _ => rfl) fun l q => if_neg fun h => hask ⟨h.1, h.2.1⟩

end SlotEffect

/-! ## What hosts and poll queues have after a loop -/

/-- Rules that are taken for no more than some of the elements. -/
theorem foldl_ite {α β : Type} (p : β → Bool) (f : α → β → α) (xs : List β) (a : α) :
    xs.foldl (fun a x => if p x then f a x else a) a = (xs.filter p).foldl f a := by
  rw [List.foldl_filter]

/-- Items that are put at a tail one after another. -/
theorem foldl_append_ite {α β : Type} (p : β → Prop) [DecidablePred p] (f : β → α) (xs : List β) (q : List α) :
    xs.foldl (fun q x => if p x then q ++ [f x] else q) q = q ++ (xs.filter fun x => decide (p x)).map f := by
  induction xs generalizing q with
  | nil => simp
  | cons x xs ih =>
    rw [List.foldl_cons, ih]
    by_cases hx : p x <;> simp [hx]

theorem foldl_id {α β : Type} (xs : List β) (a : α) : xs.foldl (fun a _ => a) a = a := by
  induction xs with
  | nil => rfl
  | cons x xs ih => exact ih

/-! ## A loop over the slots -/

/-- The slots, hosts and poll queues after a rule has been taken for every slot in ascending index. -/
structure SlotsEffect (s t : State) (sl : SlotIx → Slot) (H : SlotIx → Host → HostState → HostState)
    (P : SlotIx → Link → List PollItem → List PollItem) : Prop where
  slots : ∀ i, t.slots.get i = sl i
  hosts : ∀ h, t.hosts.get h = (List.finRange 48).foldl (fun hs i => H i h hs) (s.hosts.get h)
  polls : ∀ l, t.pollQueues.get l = (List.finRange 48).foldl (fun q i => P i l q) (s.pollQueues.get l)
  aside : s.SameAside t

/-- Slots whose turn has not come are as they were. -/
theorem foldl_slotEffect {f : SlotIx → State → State} {s : State} {sl : SlotIx → Slot} {H : SlotIx → Host → HostState → HostState}
    {P : SlotIx → Link → List PollItem → List PollItem}
    (hf : ∀ i u, s.SameAside u → u.slots.get i = s.slots.get i → SlotEffect u (f i u) i (sl i) (H i) (P i))
    (xs : List SlotIx) (hxs : xs.Nodup) (u : State) (hu : s.SameAside u) (hslots : ∀ i ∈ xs, u.slots.get i = s.slots.get i) :
    s.SameAside (xs.foldl (fun s i => f i s) u)
    ∧ (∀ i, (xs.foldl (fun s i => f i s) u).slots.get i = if i ∈ xs then sl i else u.slots.get i)
    ∧ (∀ h, (xs.foldl (fun s i => f i s) u).hosts.get h = xs.foldl (fun hs i => H i h hs) (u.hosts.get h))
    ∧ ∀ l, (xs.foldl (fun s i => f i s) u).pollQueues.get l = xs.foldl (fun q i => P i l q) (u.pollQueues.get l) := by
  induction xs generalizing u with
  | nil => exact ⟨hu, fun i => by simp, fun _ => rfl, fun _ => rfl⟩
  | cons x xs ih =>
    obtain ⟨hx, hxs⟩ := List.nodup_cons.1 hxs
    have heff := hf x u hu (hslots x List.mem_cons_self)
    have hlater (i : SlotIx) (hi : i ∈ xs) : (f x u).slots.get i = s.slots.get i := by
      have hne : i ≠ x := fun h => hx (h ▸ hi)
      rw [heff.others i hne]
      exact hslots i (List.mem_cons_of_mem _ hi)
    obtain ⟨haside, hslot, hhost, hpoll⟩ := ih hxs (f x u) (hu.trans heff.aside) hlater
    refine ⟨haside, fun i => (hslot i).trans ?_, fun h => (hhost h).trans (by rw [List.foldl_cons, heff.hosts]),
      fun l => (hpoll l).trans (by rw [List.foldl_cons, heff.polls])⟩
    by_cases hi : i = x
    · subst hi
      simp [hx, heff.slot]
    · simp [hi, heff.others i hi]

theorem forSlots_effect {f : SlotIx → State → State} {s : State} {sl : SlotIx → Slot} {H : SlotIx → Host → HostState → HostState}
    {P : SlotIx → Link → List PollItem → List PollItem}
    (hf : ∀ i u, s.SameAside u → u.slots.get i = s.slots.get i → SlotEffect u (f i u) i (sl i) (H i) (P i)) :
    SlotsEffect s (forSlots f s) sl H P := by
  obtain ⟨haside, hslot, hhost, hpoll⟩ := foldl_slotEffect hf (List.finRange 48) (List.nodup_finRange 48) s (.refl s) fun _ _ => rfl
  exact ⟨fun i => (hslot i).trans (if_pos (List.mem_finRange i)), hhost, hpoll, haside⟩

end Sys2Proof.Machine

/-!
# Ports, the millisecond event, and the state in which a command is judged (sections 2.1, 2.3 and 9.1)
-/

namespace Sys2Proof.Machine

set_option Elab.async false

/-! ## What the part's own rules keep of a port -/

theorem HostState.KeepsPort.rfl {hs : HostState} : hs.KeepsPort hs := ⟨Eq.refl _, Eq.refl _, Eq.refl _⟩

theorem HostState.KeepsPort.trans {a b c : HostState} (h : a.KeepsPort b) (h' : b.KeepsPort c) : a.KeepsPort c :=
  ⟨h'.pointer.trans h.pointer, h'.transaction.trans h.transaction, h'.result.trans h.result⟩

/-- Each host's pointer, transaction and result record stay. -/
structure State.KeepsPorts (s t : State) : Prop where
  host : ∀ g, (s.hosts.get g).KeepsPort (t.hosts.get g)

namespace State.KeepsPorts

theorem refl (s : State) : s.KeepsPorts s := ⟨fun _ => .rfl⟩

theorem trans {s u t : State} (h : s.KeepsPorts u) (h' : u.KeepsPorts t) : s.KeepsPorts t := ⟨fun g => (h.host g).trans (h'.host g)⟩

theorem of_eq {s t : State} (h : t.hosts = s.hosts) : s.KeepsPorts t := ⟨fun _ => h ▸ .rfl⟩

theorem modHost {s : State} {h : Host} {f : HostState → HostState} (hf : (s.hosts.get h).KeepsPort (f (s.hosts.get h))) :
    s.KeepsPorts (s.modHost h f) := by
  refine ⟨fun g => ?_⟩
  simp only [State.modHost_hosts, get_upd]
  split
  · next hg => exact hg ▸ hf
  · exact .rfl

theorem notify (h : Host) (b : EventBody) (s : State) : s.KeepsPorts (notify h b s) := by
  refine modHost ?_
  unfold HostState.receive
  repeat' split
  all_goals exact ⟨rfl, rfl, rfl⟩

theorem of_touch {s t : State} (h : Touch s t) : s.KeepsPorts t := by
  cases h with
  | told h b => exact .notify ..
  | kept i f => exact .of_eq rfl
  | queued i => exact .of_eq (queuePoll_read (g := State.hosts) (fun _ _ _ => rfl) (fun _ _ _ => rfl) ..)

theorem of_touches {s t : State} (h : Touches s t) : s.KeepsPorts t := by
  induction h with
  | refl => exact .refl _
  | tail _ hlast ih => exact ih.trans (of_touch hlast)

theorem completeDrain (h : Host) (s : State) : s.KeepsPorts (completeDrain h s) := by
  unfold Machine.completeDrain
  split
  · exact .refl _
  · split
    · exact .refl _
    · exact (notify ..).trans (modHost ⟨rfl, rfl, rfl⟩)

theorem finishWrite (l : Link) (r : WriteRecord) (o : Reason) (s : State) : s.KeepsPorts (finishWrite l r o s) := by
  have htold := of_touches (tellEnding_touches r o s)
  have hcounted : s.KeepsPorts
      ((if r.covered = true ∧ o ≠ .ok then countDrainFailure r.origin (tellEnding r o s) else tellEnding r o s).modWrites l
        (freeRecord r)) := by
    split
    · exact (htold.trans (modHost (f := fun hs => { hs with drain := hs.drain.map fun d => { d with failed := d.failed + 1 } })
        ⟨rfl, rfl, rfl⟩)).trans (.of_eq rfl)
    · exact htold.trans (.of_eq rfl)
  rw [finishWrite_eq]
  dsimp only
  split
  · exact hcounted.trans (completeDrain ..)
  · exact hcounted

theorem of_act {new departs net : Bool} {s t : State} (ha : Act ⟨false, new, departs⟩ net s t) : s.KeepsPorts t := by
  cases ha with
  | touch h => exact of_touch h
  | aside _ _ _ _ hhosts => exact .of_eq hhosts
  | retimed c p => exact State.KeepsPorts.trans (u := s.retime c p) (.of_eq rfl) (of_touches (retimed_touches c p s))
  | identified _ n i c =>
    exact State.KeepsPorts.trans (u := s.identify n i c) (.of_eq rfl) (of_touches (recordIdentity_touches n i c s))
  | recorded h f _ _ hport => exact modHost (hport _)
  | cleared h => rw [State.modHost_modHost]; exact modHost ⟨rfl, rfl, rfl⟩
  | aliased | unaliased => exact modHost ⟨rfl, rfl, rfl⟩
  | freed hnew i => exact .of_eq (freeSlot_hosts i s)
  | suspended i => exact .of_eq (suspendEntry_read (g := State.hosts) (fun _ _ _ => rfl) (fun _ _ _ => rfl) ..)
  | emptied _ l => exact .of_eq (emptyPollQueue_read (g := State.hosts) (fun _ _ _ => rfl) (fun _ _ _ => rfl) ..)
  | lapsed h l r why seq => exact State.KeepsPorts.trans (u := dropReservation h l s) (.of_eq rfl) (finishWrite ..)
  | finished l r o => exact finishWrite ..
  | clearedWrites h => exact (modHost (s := s) (h := h) (f := fun hs => { hs with drain := none }) ⟨rfl, rfl, rfl⟩).trans (.of_eq rfl)
  | drained h c =>
    exact (modHost (s := s) (h := h)
      (f := fun hs => { hs with drain := some { counter := c, covered := s.drainCount h, failed := 0 } }) ⟨rfl, rfl, rfl⟩).trans (.of_eq rfl)
  | granted l => exact .of_eq (grantOne_read (g := State.hosts) (fun _ _ _ => rfl) (fun _ _ _ => rfl) (fun _ _ _ => rfl) (fun _ _ _ => rfl) ..)
  | writeEnded l t r w o => exact State.KeepsPorts.trans (u := withdraw l t s) (.of_eq rfl) (finishWrite ..)
  | ported hp | removed hp => cases hp
  | _ => exact .of_eq rfl

theorem of_acts {new departs net : Bool} {s t : State} (h : Acts ⟨false, new, departs⟩ net s t) : s.KeepsPorts t := by
  induction h with
  | refl => exact .refl _
  | tail _ hlast ih => exact ih.trans (of_act hlast)

end State.KeepsPorts

theorem settle_keepsPorts (s : State) : s.KeepsPorts (settle s) := .of_acts (settle_moves (port := ⟨false, false, false⟩) s).toActs

/-! ## The open parts of the millisecond event -/

theorem departLink_due (l : Link) (next : LinkState) (why : Reason) (s : State) : (departLink l next why s).due = s.due :=
  departLink_read (g := State.due) (fun _ _ _ => rfl) (fun _ _ _ => rfl) (fun _ _ _ => rfl) (fun _ _ _ => rfl) (fun _ _ _ => rfl)
    (fun _ _ _ => rfl) (fun _ _ _ => rfl) (fun _ _ => rfl) ..

theorem upd_of_get {α : Type} {n : Nat} {v : Vector α n} {i : Fin n} {a : α} (h : v.get i = a) : upd v i (fun _ => a) = v :=
  (upd_congr v i (g := fun x => x) h.symm).trans (upd_id v i)

theorem takeStaleCheck_due (s : State) : (takeStaleCheck s).due = { s.due with stale := false } := by
  unfold takeStaleCheck
  split
  · exact checkLimits_read (g := State.due) (fun _ _ _ => rfl) (fun _ _ _ => rfl) _
  · next h =>
    rw [Bool.not_eq_true] at h
    rw [← h]

theorem takeTicks_due (s : State) : (takeTicks s).due = { s.due with ticks := false } := by
  unfold takeTicks
  split
  · rw [grants_read (g := State.due) (fun _ _ _ => rfl) (fun _ _ _ => rfl) (fun _ _ _ => rfl) (fun _ _ _ => rfl),
      tickClasses_read (g := State.due) (fun _ _ _ => rfl) (fun _ _ _ => rfl)]
  · next h =>
    rw [Bool.not_eq_true] at h
    rw [← h]

theorem takeLeases_due (s : State) : (takeLeases s).due = { s.due with leases := false } := by
  unfold takeLeases
  split
  · exact expireClaims_read (g := State.due) (fun _ _ _ => rfl) (fun _ _ _ => rfl) _
  · next h =>
    rw [Bool.not_eq_true] at h
    rw [← h]

theorem takeDeadline_due (l : Link) (s : State) :
    (takeDeadline l s).due = { s.due with deadline := upd s.due.deadline l fun _ => false } := by
  unfold takeDeadline trainingDeadline
  split
  · split
    · rw [departLink_due]
    · rfl
  · next h => rw [upd_of_get (by simpa using h)]

theorem takeHoldOff_due (l : Link) (s : State) :
    (takeHoldOff l s).due = { s.due with holdOff := upd s.due.holdOff l fun _ => false } := by
  unfold takeHoldOff holdOffEnd
  split
  · split <;> rfl
  · next h => rw [upd_of_get (by simpa using h)]

theorem takeSilence_due (l : Link) (s : State) :
    (takeSilence l s).due = { s.due with silence := upd s.due.silence l fun _ => false } := by
  unfold takeSilence silenceReached
  split
  · split
    · rw [departLink_due]
    · rfl
  · next h => rw [upd_of_get (by simpa using h)]

theorem upd_both (v : Vector Bool 2) : upd (upd v 0 fun _ => false) 1 (fun _ => false) = Vector.replicate 2 false := by
  refine Vector.ext fun i hi => ?_
  have h : i = 0 ∨ i = 1 := by omega
  rcases h with rfl | rfl <;> simp [upd]

/-- No part is open once the event is complete. -/
theorem settle_due (s : State) : (settle s).due = EventParts.noneDue := by
  simp only [settle, takeLinkParts, takeSilence_due, takeHoldOff_due, takeDeadline_due, takeLeases_due, takeTicks_due,
    takeStaleCheck_due, upd_both]
  rfl

theorem noneDue_deadline (l : Link) : EventParts.noneDue.deadline.get l = false := by simp [EventParts.noneDue, Vector.get_eq_getElem]
theorem noneDue_holdOff (l : Link) : EventParts.noneDue.holdOff.get l = false := by simp [EventParts.noneDue, Vector.get_eq_getElem]
theorem noneDue_silence (l : Link) : EventParts.noneDue.silence.get l = false := by simp [EventParts.noneDue, Vector.get_eq_getElem]

/-- With no part open there is nothing to complete. -/
theorem settle_of_noneDue {s : State} (h : s.due = EventParts.noneDue) : settle s = s := by
  have hlink (l : Link) : takeLinkParts l s = s := by
    simp [takeLinkParts, takeDeadline, takeHoldOff, takeSilence, h, noneDue_deadline, noneDue_holdOff, noneDue_silence]
  have hstale : takeStaleCheck s = s := by simp [takeStaleCheck, h, EventParts.noneDue]
  have hticks : takeTicks s = s := by simp [takeTicks, h, EventParts.noneDue]
  have hleases : takeLeases s = s := by simp [takeLeases, h, EventParts.noneDue]
  rw [settle, hstale, hticks, hleases, hlink, hlink]

/-- Completing the event is taking its rows in their order. -/
theorem settle_leadsTo (s : State) : s.leadsTo openParts (settle s) :=
  ⟨_, rfl, _, rfl, _, rfl, _, rfl, _, rfl, _, rfl, _, rfl, _, rfl, _, rfl, rfl⟩

/-! ## The count (R29, R40, R103) -/

/-- R40: every entry is aged. -/
theorem ageEntries_effect (s : State) : SlotsEffect s (ageEntries s)
    (fun i => { s.slots.get i with entry := (s.slots.get i).entry.map fun e => { e with age := satInc e.age } })
    (fun _ _ hs => hs) (fun _ _ q => q) :=
  forSlots_effect fun i u _ hslot => by
    rw [← hslot]
    exact .modEntry_map u i _

theorem silence_eq (k : LinkRecord) : k.countSilence =
    { k with activity := false,
             silence := if k.state = .enumerating ∨ k.state = .up then (if k.activity then 0 else k.silence + 1) else k.silence } := by
  unfold LinkRecord.countSilence
  cases k.state <;> rfl

/-- The count, the ages and the silence counts at a millisecond event whose predecessor is complete. -/
theorem counted_eq (u : State) :
    let t := { ((ageEntries { u with timeBase := u.timeBase + 1 }).modLink 0 LinkRecord.countSilence).modLink 1 LinkRecord.countSilence
      with due := EventParts.allDue }
    t.timeBase = u.timeBase + 1
    ∧ (∀ i, t.slots.get i = { u.slots.get i with entry := (u.slots.get i).entry.map fun e => { e with age := satInc e.age } })
    ∧ (∀ l, t.links.get l = (u.links.get l).countSilence)
    ∧ t = { u with timeBase := t.timeBase, slots := t.slots, links := t.links, due := EventParts.allDue } := by
  have haged := ageEntries_effect { u with timeBase := u.timeBase + 1 }
  have hhosts : (ageEntries { u with timeBase := u.timeBase + 1 }).hosts = u.hosts :=
    ageEntries_read (g := State.hosts) (fun _ _ _ => rfl) _
  have hpolls : (ageEntries { u with timeBase := u.timeBase + 1 }).pollQueues = u.pollQueues :=
    ageEntries_read (g := State.pollQueues) (fun _ _ _ => rfl) _
  have hlinks : (ageEntries { u with timeBase := u.timeBase + 1 }).links = u.links :=
    haged.aside.read (g := State.links) fun _ _ _ _ => rfl
  have haside := haged.aside
  refine ⟨haged.aside.timeBase, haged.slots, fun l => ?_, ?_⟩
  · simp only [State.modLink_links, hlinks, get_upd]
    match l with
    | 0 => rfl
    | 1 => rfl
  · rw [State.SameAside] at haside
    simp only [State.modLink]
    rw [haside]
    simp only [hhosts, hpolls]

/-- A count that stays at its greatest value. -/
theorem satInc_age (x : Word16) : satInc x = if x = 65535 then x else x + 1 := by
  have hmax : BitVec.allOnes 16 = 65535 := by decide
  rw [satInc, hmax]

theorem settle_timeBase (s : State) : (settle s).timeBase = s.timeBase :=
  settle_read (g := State.timeBase) (fun _ _ _ => rfl) (fun _ _ _ => rfl) (fun _ _ _ => rfl) (fun _ _ _ => rfl)
    (fun _ _ _ => rfl) (fun _ _ _ => rfl) (fun _ _ _ => rfl) (fun _ _ => rfl) (fun _ _ _ => rfl) (fun _ _ => rfl) s

/-- Settles O38: the parts of the event before, then the count, the ages and the silence counts. -/
theorem millisecondAdvancesCount : Obligations.MillisecondAdvancesCount := by
  intro s
  obtain ⟨htime, hslots, hlinks, hrest⟩ := counted_eq (settle s)
  simp only [satInc_age] at hslots
  simp only [silence_eq] at hlinks
  refine ⟨millisecond s, rfl, ?_, ?_, ?_, ?_, settle_leadsTo s, settle_of_noneDue⟩
  · have hcount : (millisecond s).timeBase = (settle s).timeBase + 1 := htime
    rw [hcount, settle_timeBase]
  · exact hslots
  · exact hlinks
  · exact hrest

end Sys2Proof.Machine

/-!
# Reset, the links' timers, LINK_STOP, and the state in which a command is judged
-/

namespace Sys2Proof.Machine

set_option Elab.async false

/-! ## A step and a reset -/

/-- Settles O1. -/
theorem stepTakesFrontCommand : Obligations.StepTakesFrontCommand :=
  ⟨fun _ _ _ => rfl, fun s hs => by simp only [step, hs]⟩

theorem get_replicate {α : Type} {n : Nat} (a : α) (i : Fin n) : (Vector.replicate n a).get i = a := by
  simp [Vector.get_eq_getElem]

/-- Settles O2: each block's reset record is read off. -/
theorem resetGivesResetValues : Obligations.ResetGivesResetValues := by
  refine ⟨fun a b s => ⟨State.resetWith a b s.choices s.pending, rfl, rfl, rfl, rfl, fun i => get_replicate _ i,
    fun l => ⟨get_replicate _ l, get_replicate _ l⟩, fun n => ⟨get_replicate _ n, get_replicate _ n⟩, fun l => get_replicate _ l,
    fun l => ?_, fun h => ?_, ?_, ?_, rfl⟩, rfl⟩
  · have harbiter : (State.resetWith a b s.choices s.pending).arbiters.get l = Arbiter.reset := get_replicate _ l
    rw [harbiter]
    exact ⟨fun g => get_replicate _ g, rfl, rfl, rfl, rfl, rfl⟩
  · have hhost : (State.resetWith a b s.choices s.pending).hosts.get h = HostState.reset := get_replicate _ h
    have hline : (State.resetWith a b s.choices s.pending).intAsserted h = false := by
      simp [State.intAsserted, hhost, HostState.reset]
    rw [hhost]
    exact ⟨fun k => get_replicate _ k, rfl, rfl, rfl, rfl, rfl, rfl, rfl, rfl, rfl, rfl, rfl, hline⟩
  · cases a <;> rfl
  · have hsetup : (State.resetWith a b s.choices s.pending).setupHost = if b = 1 then 1 else if b = 2 then 2 else 0 := rfl
    rw [hsetup]
    split_ifs <;> rfl

theorem State.modLink_congr {s : State} (l : Link) {f g : LinkRecord → LinkRecord} (h : f (s.links.get l) = g (s.links.get l)) :
    s.modLink l f = s.modLink l g := by
  simp only [State.modLink, upd_congr s.links l h]

/-! ## The timers of a link (R101, R103, R106) -/

theorem LinkState.judgesSilence_iff (k : LinkState) : k.judgesSilence = true ↔ k = .enumerating ∨ k = .up := by
  cases k <;> simp [LinkState.judgesSilence]

/-- Settles O42: a part that is open is closed and its moment judged. -/
theorem linkTimersJudged : Obligations.LinkTimersJudged := by
  intro l s d q o deadline silent ended
  have hclosed (h : s.due.deadline.get l = true) : takeDeadline l s = trainingDeadline l d := if_pos h
  have hquiet (h : s.due.silence.get l = true) : takeSilence l s = silenceReached l q := if_pos h
  have hheld (h : s.due.holdOff.get l = true) : takeHoldOff l s = holdOffEnd l o := if_pos h
  refine ⟨fun h => ?_, fun h hd => ?_, fun h hd => ?_, fun h => ?_, fun h hq => ?_, fun h hq => ?_, fun h => ?_, fun h he => ?_,
    fun h he hauto => ?_, fun h he hauto => ?_⟩
  · exact congrArg Host.Outcome.next (if_neg (by simp [h]))
  · exact congrArg Host.Outcome.next ((hclosed h).trans (if_pos hd))
  · exact congrArg Host.Outcome.next ((hclosed h).trans (if_neg hd))
  · exact congrArg Host.Outcome.next (if_neg (by simp [h]))
  · have hjudged : (q.linkState l).judgesSilence = true ∧ 5 ≤ (q.links.get l).silence := ⟨(LinkState.judgesSilence_iff _).2 hq.1, hq.2⟩
    exact congrArg Host.Outcome.next ((hquiet h).trans (if_pos hjudged))
  · have hjudged : ¬ ((q.linkState l).judgesSilence = true ∧ 5 ≤ (q.links.get l).silence) := fun hj =>
      hq ⟨(LinkState.judgesSilence_iff _).1 hj.1, hj.2⟩
    exact congrArg Host.Outcome.next ((hquiet h).trans (if_neg hjudged))
  · exact congrArg Host.Outcome.next (if_neg (by simp [h]))
  · exact congrArg Host.Outcome.next ((hheld h).trans (if_neg he))
  · have hend : holdOffEnd l o = o.modLink l fun k => if k.autoRestart then k.train o.timeBase else { k with holdOff := none } := if_pos he
    have hmod : (o.modLink l fun k => if k.autoRestart then k.train o.timeBase else { k with holdOff := none })
        = o.modLink l fun k => { k with holdOff := none } := State.modLink_congr l (if_neg (by simp [o, hauto]))
    exact congrArg Host.Outcome.next ((hheld h).trans (hend.trans hmod))
  · have hend : holdOffEnd l o = o.modLink l fun k => if k.autoRestart then k.train o.timeBase else { k with holdOff := none } := if_pos he
    have hmod : (o.modLink l fun k => if k.autoRestart then k.train o.timeBase else { k with holdOff := none })
        = o.modLink l fun k => k.train s.timeBase := State.modLink_congr l (if_pos hauto)
    exact congrArg Host.Outcome.next ((hheld h).trans (hend.trans hmod))

/-! ## LINK_STOP (R105) -/

theorem exec_linkStop {h : Host} {lb : Byte} {s t : State} {st : Status} {vs : List Byte} (hsetup : h = s.setupHost)
    (hr : cmdLinkStop h [lb] (s.judged .linkStop h [lb]) = { status := st, values := vs, state := t }) :
    exec (.linkStop h [lb]) s = .next (t.withResult h 0xA3 st vs) :=
  exec_row_of_setupHost (c := .linkStop) (by simp) rfl hsetup hr

/-- Settles O34: one case per link state. -/
theorem linkStopLeavesService : Obligations.LinkStopLeavesService := by
  intro h lb s hsetup s0
  refine ⟨fun hlb => exec_linkStop hsetup (t := s0) (by simp only [cmdLinkStop, linkOfByte_eq_none hlb]; rfl), fun l hlb => ⟨fun hl => ?_, fun hl => ?_, fun hl => ?_⟩⟩
  · exact exec_linkStop hsetup (by simp only [cmdLinkStop, linkOfByte_eq_some hlb]; simp only [s0] at hl; rw [hl]; rfl)
  · exact exec_linkStop hsetup (by simp only [cmdLinkStop, linkOfByte_eq_some hlb]; simp only [s0] at hl; rw [hl]; rfl)
  · refine exec_linkStop hsetup (by
      simp only [cmdLinkStop, linkOfByte_eq_some hlb]
      simp only [s0] at hl
      rcases hl with hl | hl | hl <;> simp only [s0, hl])

/-! ## The state in which a command is judged (R132, R150) -/

/-- A command's taking leaves every pointer and transaction: the result record alone is placed. -/
theorem runCommand_port (c : Command) (h : Host) (ps : List Byte) (s : State) (g : Host) :
    ((runCommand c h ps s).hosts.get g).pointer = (s.hosts.get g).pointer
    ∧ ((runCommand c h ps s).hosts.get g).transaction = (s.hosts.get g).transaction := by
  unfold runCommand placeResult
  split
  · exact ⟨rfl, rfl⟩
  · have hkept := ((settle_keepsPorts s).trans (.of_acts (answer_moves (port := ⟨false, c.creates, false⟩) c rfl h ps (settle s)).toActs)).host g
    simp only [State.withResult, State.modHost_hosts, get_upd]
    split
    · next hg => subst hg; exact ⟨hkept.pointer, hkept.transaction⟩
    · exact ⟨hkept.pointer, hkept.transaction⟩

/-- A host's record whose transaction is closed. -/
theorem closed_host (h g : Host) (s : State) :
    ((s.modHost h fun hs => { hs with transaction := .idle }).hosts.get g).pointer = (s.hosts.get g).pointer
    ∧ ((s.modHost h fun hs => { hs with transaction := .idle }).hosts.get h).transaction = .idle
    ∧ ((s.modHost h fun hs => { hs with transaction := .idle }).hosts.get g).result = (s.hosts.get g).result := by
  simp only [State.modHost_hosts, get_upd]
  split
  · next hg => subst hg; exact ⟨rfl, rfl, rfl⟩
  · exact ⟨rfl, rfl, rfl⟩

theorem HostState.removeRead_port (stamp : Word16) (r : EventRecord) (hs : HostState) : hs.KeepsPort (hs.removeRead stamp r) := by
  unfold HostState.removeRead
  repeat' split
  all_goals exact ⟨rfl, rfl, rfl⟩

/-- Every ending of a transaction leaves the pointers and closes it; an ending that takes no command leaves the result record. -/
theorem endTransaction_port (h : Host) (s : State) (g : Host) :
    ((endTransaction h s).hosts.get g).pointer = (s.hosts.get g).pointer
    ∧ ((endTransaction h s).hosts.get h).transaction = .idle
    ∧ ((∀ p b bs, s.transaction h ≠ .controlWrite p (b :: bs)) →
        ((endTransaction h s).hosts.get g).result = (s.hosts.get g).result) := by
  obtain ⟨hpointer, hidle, hresult⟩ := closed_host h g s
  cases ht : s.transaction h with
  | idle => simp only [endTransaction, ht]; exact ⟨trivial, ht, fun _ => trivial⟩
  | ignored => simp only [endTransaction, ht]; exact ⟨hpointer, hidle, fun _ => hresult⟩
  | controlWrite b bytes =>
    cases b with
    | none => simp only [endTransaction, controlWriteEnd, ht]; exact ⟨hpointer, hidle, fun _ => hresult⟩
    | some b =>
      simp only [endTransaction, controlWriteEnd, ht]
      cases hc : commandAt b with
      | none => exact ⟨hpointer, hidle, fun _ => hresult⟩
      | some c =>
        have hport := runCommand_port c h bytes (s.modHost h fun hs => { hs with transaction := .idle })
        refine ⟨(hport g).1.trans hpointer, (hport h).2.trans hidle, fun hno => ?_⟩
        cases bytes with
        | nil => exact hresult
        | cons x xs => exact absurd ht (ht ▸ hno (some b) x xs)
  | controlRead start copy sent =>
    have hread : ((endTransaction h s).hosts.get g).pointer = (s.hosts.get g).pointer
        ∧ ((endTransaction h s).hosts.get h).transaction = .idle
        ∧ ((endTransaction h s).hosts.get g).result = (s.hosts.get g).result := by
      simp only [endTransaction, controlReadEnd, ht, State.modHost_hosts, get_upd, if_true]
      cases hevent : copy.event with
      | none =>
        split
        · next hg => exact hg ▸ ⟨rfl, rfl, rfl⟩
        · exact ⟨rfl, rfl, rfl⟩
      | some r =>
        have hremoved (hs : HostState) := HostState.removeRead_port (low16 s.timeBase) r { hs with transaction := .idle }
        by_cases hcover : coversEventArea start sent = true
        · simp only [hcover, if_true]
          split
          · next hg => exact hg ▸ ⟨(hremoved _).pointer, (hremoved _).transaction, (hremoved _).result⟩
          · exact ⟨rfl, (hremoved _).transaction, rfl⟩
        · simp only [hcover]
          split
          · next hg => exact hg ▸ ⟨rfl, rfl, rfl⟩
          · exact ⟨rfl, rfl, rfl⟩
    exact ⟨hread.1, hread.2.1, fun _ => hread.2.2⟩
  | aliasWrite k w phase =>
    simp only [endTransaction, aliasWriteEnd, ht]
    have hkept : State.KeepsPorts _ (grants (takeWrite h (nodeLink w.node) (s.modHost h fun hs => { hs with transaction := .idle }))) :=
      .of_acts (new := false) (departs := false) (net := false) (after (grants_acts _) (takeWrite_acts h (nodeLink w.node) _))
    exact ⟨(hkept.host g).pointer.trans hpointer, (hkept.host h).transaction.trans hidle, fun _ => (hkept.host g).result.trans hresult⟩
  | aliasRead k w start snapshot sent fill =>
    simp only [endTransaction, aliasReadEnd, ht, State.modHost_hosts, get_upd]
    split
    · next hg => subst hg; exact ⟨rfl, rfl, fun _ => rfl⟩
    · exact ⟨rfl, rfl, fun _ => rfl⟩

theorem closeFor_port (c : Command) (h : Host) (ps : List Byte) (s : State) (g : Host) :
    ((closeFor c h ps s).hosts.get g).pointer = (s.hosts.get g).pointer
    ∧ ((closeFor c h ps s).hosts.get h).transaction = .idle
    ∧ ((∀ p b bs, s.transaction h ≠ .controlWrite p (b :: bs)) →
        ((closeFor c h ps s).hosts.get g).result = (s.hosts.get g).result) := by
  unfold closeFor
  split
  · obtain ⟨hpointer, hidle, hresult⟩ := closed_host h g s
    exact ⟨hpointer, hidle, fun _ => hresult⟩
  · exact endTransaction_port h s g

/-- Settles O16: what closes a transaction, then what completes the event, and that neither moves a pointer. -/
theorem commandJudgedAfterMillisecond : Obligations.CommandJudgedAfterMillisecond := by
  refine ⟨fun s => ⟨settle_leadsTo s, settle_due s⟩, fun c h ps s => ⟨fun hown => ?_, fun hother => ?_, settle_due _, ?_, fun hdue hown => ?_,
    fun g => ?_, ⟨takeCommand c h ps s, exec_row c h ps s, fun g => ?_⟩, fun hno => ⟨takeCommand c h [] s, exec_row c h [] s, ?_⟩⟩⟩
  · rw [State.judged, closeFor, if_pos hown]
  · rw [State.judged, closeFor, if_neg hother]
  · exact ((settle_keepsPorts _).host h).transaction.trans (closeFor_port c h ps s h).2.1
  · rw [State.judged, closeFor, if_pos hown]
    exact settle_of_noneDue hdue
  · exact ((settle_keepsPorts _).host g).pointer.trans (closeFor_port c h ps s g).1
  · exact (runCommand_port c h ps _ g).1.trans (closeFor_port c h ps s g).1
  · exact (closeFor_port c h [] s h).2.2 hno

end Sys2Proof.Machine

/-!
# What a link sends, and its response timers (sections 6.2, 6.6 and 7.4)
-/

namespace Sys2Proof.Machine

set_option Elab.async false

/-- R173: the bytes of a frame are those on the line. -/
theorem frameBytes_eq (kind : Byte) (body : List Byte) : frameBytes kind body = onTheLine kind body := by
  simp only [frameBytes, onTheLine, bytes16_eq]
  rfl

theorem State.modArbiter_congr {s : State} (l : Link) {f g : Arbiter → Arbiter} (h : f (s.arbiters.get l) = g (s.arbiters.get l)) :
    s.modArbiter l f = s.modArbiter l g := by
  simp only [State.modArbiter, upd_congr s.arbiters l h]

/-- The request on a tag is replaced. -/
theorem Arbiter.modTag_request {a : Arbiter} {t : Tag} {r : Request} (hr : (a.tags.get t).request = some r) (f : Request → Request) :
    a.modTag t (fun tr => { tr with request := tr.request.map f })
      = { a with tags := upd a.tags t fun tr => { tr with request := some (f r) } } := by
  simp only [Arbiter.modTag]
  rw [upd_congr a.tags t (g := fun tr => { tr with request := some (f r) }) (by simp [hr])]

/-! ## FRAME_SENT (R97, R107, R116) -/

/-- R112, R173: the bytes of a copy. -/
theorem State.copyBytes_eq (s : State) (l : Link) (t : Tag) (r : Request) :
    s.copyBytes l t r = onTheLine 0x02
      ([r.kind.code, byteOf (t.val + 16 * ((s.arbiters.get l).tags.get t).round.toNat), byteOf (nodeAddress r.node),
        byteOf (r.address.toNat / 256), byteOf r.address.toNat, byteOf r.length] ++ s.requestData l r) := by
  simp only [State.copyBytes, requestFrame, frameBytes_eq, bytes16_eq]
  rfl

section
variable {l : Link} {s : State}

/-- The serving transmitter's frame, once what is to be sent and what it leaves are known. -/
theorem copySent_serving (hserving : s.linkState l = .enumerating ∨ s.linkState l = .up) :
    s.transmits l = some ((s.requestToSend l).getD syncFrameBytes)
    ∧ copySent l s = (requestSent l s).modArbiter l fun a => { a with sentFrame := (s.requestToSend l).getD syncFrameBytes } := by
  rcases copySent_cases l s with ⟨hquiet, -⟩ | ⟨htraining, -⟩ | ⟨-, h⟩
  · rcases hserving with h | h <;> simp [h, LinkState.running] at hquiet
  · rcases hserving with h | h <;> simp [h] at htraining
  · exact h

end

/-- Settles O43: one case per link state and per frame that is sent next. -/
theorem frameSentStartsTimer : Obligations.FrameSentStartsTimer := by
  intro l s sends serving
  have hsync : syncFrameBytes = onTheLine 0x01 [] := frameBytes_eq 0x01 []
  refine ⟨fun hquiet => ?_, fun htraining => ?_, fun hserving hline horder => ?_, fun bytes hserving hline => ?_, fun t r => ?_,
    fun t rest r hserving hline horder hr => ?_⟩
  · rcases copySent_cases l s with ⟨-, hnone, h⟩ | ⟨htraining, -⟩ | ⟨hserving, -⟩
    · exact ⟨hnone, congrArg Host.Outcome.next h⟩
    · rcases hquiet with h | h <;> simp [h] at htraining
    · rcases hquiet with h | h <;> simp [h] at hserving
  · rcases copySent_cases l s with ⟨hrun, -⟩ | ⟨-, hsome, h⟩ | ⟨hserving, -⟩
    · simp [htraining, LinkState.running] at hrun
    · exact ⟨hsync ▸ hsome, congrArg Host.Outcome.next (hsync ▸ h)⟩
    · simp [htraining] at hserving
  · obtain ⟨hsome, h⟩ := copySent_serving hserving
    have hto : s.requestToSend l = none := by simp only [State.requestToSend, hline, horder]
    have hrest : requestSent l s = s := by simp only [requestSent, hline, horder]
    rw [hto, Option.getD_none, hsync] at hsome h
    rw [hrest] at h
    exact ⟨hsome, congrArg Host.Outcome.next h⟩
  · obtain ⟨hsome, h⟩ := copySent_serving hserving
    have hto : s.requestToSend l = some bytes := by simp only [State.requestToSend, hline]
    have hrest : requestSent l s = s.modArbiter l fun a => { a with onLine := none } := by simp only [requestSent, hline]
    rw [hto, Option.getD_some] at hsome h
    rw [hrest, State.modArbiter_modArbiter] at h
    exact ⟨hsome, congrArg Host.Outcome.next h⟩
  · rw [State.copyBytes_eq]
    obtain ⟨k, n, a, len, set, used, frame, once, timer⟩ := r
    cases k <;> rfl
  · intro set sent
    obtain ⟨hsome, h⟩ := copySent_serving hserving
    have hto : s.requestToSend l = some (s.copyBytes l t r) := by simp only [State.requestToSend, hline, horder, hr, Option.map_some]
    have hrest : requestSent l s = s.modArbiter l fun a =>
        { a with tags := upd a.tags t fun tr => { tr with request := some sent }, txOrder := rest } := by
      simp only [requestSent, hline, horder]
      refine State.modArbiter_congr l ?_
      rw [Arbiter.modTag_request hr]
      rfl
    rw [hto, Option.getD_some] at hsome h
    rw [hrest, State.modArbiter_modArbiter] at h
    exact ⟨hsome, congrArg Host.Outcome.next h⟩

/-! ## RESPONSE_TIMER_EXPIRY (R108, R121) -/

/-- R120, R121: the request resent. -/
theorem resend_eq {l : Link} {t : Tag} {r : Request} {s : State} (hr : s.request l t = some r) :
    resend l t s = (s.modLink l fun k => { k with retries := satInc k.retries }).modArbiter l fun a =>
      { a with
        tags := upd a.tags t fun tr => { tr with request := some r.resent }
        txOrder := if t ∈ a.txOrder then a.txOrder else a.txOrder ++ [t] } := by
  have hcopy : (s.modArbiter l fun a =>
        { (a.modTag t fun tr => { tr with request := tr.request.map Request.resent }) with
          txOrder := if t ∈ a.txOrder then a.txOrder else a.txOrder ++ [t] })
      = s.modArbiter l fun a =>
        { a with
          tags := upd a.tags t fun tr => { tr with request := some r.resent }
          txOrder := if t ∈ a.txOrder then a.txOrder else a.txOrder ++ [t] } :=
    State.modArbiter_congr l (by rw [Arbiter.modTag_request hr])
  rw [resend, hcopy]
  rfl

theorem Request.retriesLeft_iff (r : Request) :
    r.retriesLeft = true ↔ ∃ set, r.settings = some set ∧ r.retriesUsed < set.retryLimit := by
  simp [Request.retriesLeft, Option.any_eq_true]

/-- Settles O44: a tag without a running timer, then a request with and without retries left. -/
theorem timerExpiryResendsOrEnds : Obligations.TimerExpiryResendsOrEnds := by
  intro l t s
  have hexec {u : State} (h : expireTimer l t s = u) : exec (.responseTimerExpiry l t) s = .next (grants u) :=
    congrArg (fun u => Host.Outcome.next (grants u)) h
  refine ⟨fun hnone => hexec (by simp only [expireTimer, hnone]), fun r hr => ?_⟩
  intro counted again
  refine ⟨fun hwaits => hexec (by simp [expireTimer, hr, hwaits]), fun set hsent hset => ⟨fun hleft => ?_, fun hover => ?_⟩⟩
  · have hleft : r.retriesLeft = true := r.retriesLeft_iff.2 ⟨set, hset, hleft⟩
    have hcounted : counted.request l t = some r := hr
    have h : expireTimer l t s = resend l t counted := by simp only [expireTimer, hr, hsent, hleft, if_true]; rfl
    exact hexec (h.trans (resend_eq hcounted))
  · have hleft : ¬ r.retriesLeft = true := fun hl => by
      obtain ⟨set', hset', hlt⟩ := r.retriesLeft_iff.1 hl
      obtain rfl : set = set' := by simpa [hset] using hset'
      omega
    have h : expireTimer l t s = endRequest l t r .timeout [] counted := by
      simp only [expireTimer, hr, hsent, hleft, if_true]
      rfl
    exact hexec h

end Sys2Proof.Machine

/-!
# What is received on a link (sections 6.2 to 6.4, 7.3 and 11.5)
-/

namespace Sys2Proof.Machine

set_option Elab.async false

/-! ## The CRC and the next frame of the bytes received (R173) -/

theorem crcBit_eq (c : Word16) : crcBit c = if c.getLsbD 15 then c <<< 1 ^^^ 0x1021 else c <<< 1 := by
  rw [crcBit, BitVec.msb_eq_getLsbD_last]
  rfl

theorem crc16_append (bs : List Byte) (b : Byte) :
    crc16 (bs ++ [b]) = Nat.repeat (fun c : Word16 => if c.getLsbD 15 then c <<< 1 ^^^ 0x1021 else c <<< 1) 8
      (crc16 bs ^^^ b.setWidth 16 <<< 8) := by
  have hbit : (fun c : Word16 => if c.getLsbD 15 then c <<< 1 ^^^ 0x1021 else c <<< 1) = crcBit := funext fun c => (crcBit_eq c).symm
  rw [hbit]
  simp only [crc16, List.foldl_append, List.foldl_cons, List.foldl_nil, crcByte, Nat.repeat]

/-- A frame row takes the bytes it brings. -/
theorem exec_frame {frame : Instr} {l : Link} {bytes : List Byte} (hb : frame.bringsBytes l bytes) (s : State) :
    exec frame s = .next (takeLine l bytes s) := by
  rcases hb with rfl | ⟨rfl, rfl⟩ | ⟨tag, round, node, status, data, rfl, rfl⟩ | ⟨node, count, address, length, rfl, rfl⟩ | ⟨node, rfl, rfl⟩
  · rfl
  · exact congrArg (fun bytes => Host.Outcome.next (takeLine l bytes s)) (frameBytes_eq ..)
  · exact congrArg (fun bytes => Host.Outcome.next (takeLine l bytes s)) (frameBytes_eq ..)
  · refine congrArg (fun bytes => Host.Outcome.next (takeLine l bytes s)) ?_
    rw [noticeFrameBytes, frameBytes_eq, bytes16_eq]
    rfl
  · exact congrArg (fun bytes => Host.Outcome.next (takeLine l bytes s)) (frameBytes_eq ..)

section
variable (l : Link)

theorem receiveFrame_noMarker {bytes : List Byte} (hno : ∀ b ∈ bytes, b ≠ 0xA5) : receiveFrame l bytes = (.bad, []) := by
  have hdrop : (bytes.dropWhile fun b => b ≠ startMarker) = [] := List.dropWhile_eq_nil_iff.2 fun b hb =>
    decide_eq_true (hno b hb)
  simp only [receiveFrame, hdrop]

/-- What comes before a start marker is skipped. -/
theorem dropWhile_skipped {skipped : List Byte} (hskip : ∀ b ∈ skipped, b ≠ 0xA5) (after : List Byte) :
    ((skipped ++ 0xA5 :: after).dropWhile fun b => b ≠ startMarker) = 0xA5 :: after := by
  have hpos : ∀ b ∈ skipped, decide (b ≠ startMarker) = true := fun b hb => decide_eq_true (hskip b hb)
  rw [List.dropWhile_append_of_pos hpos]
  exact List.dropWhile_cons_of_neg (by simp [startMarker])

variable {skipped : List Byte} (hskip : ∀ b ∈ skipped, b ≠ 0xA5)
include hskip

theorem receiveFrame_cutHeader {after : List Byte} (hlen : after.length < 2) :
    receiveFrame l (skipped ++ 0xA5 :: after) = (.bad, []) := by
  simp only [receiveFrame, dropWhile_skipped hskip]
  match after with
  | [] => rfl
  | [_] => rfl
  | _ :: _ :: _ => simp at hlen

theorem receiveFrame_cutBody {kind length : Byte} {rest : List Byte} (hlen : rest.length < length.toNat + 2) :
    receiveFrame l (skipped ++ 0xA5 :: kind :: length :: rest) = (.bad, []) := by
  have hdrop : (rest.drop length.toNat).length < 2 := by rw [List.length_drop]; omega
  simp only [receiveFrame, dropWhile_skipped hskip]
  generalize rest.drop length.toNat = tail at hdrop
  match tail with
  | [] => rfl
  | [_] => rfl
  | _ :: _ :: _ => simp at hdrop

theorem receiveFrame_complete {kind length c1 c0 : Byte} {body beyond : List Byte} (hlen : body.length = length.toNat) :
    receiveFrame l (skipped ++ 0xA5 :: kind :: length :: (body ++ c1 :: c0 :: beyond))
      = (if word16 c1 c0 = crc16 (kind :: length :: body) then judgeBody l kind body else .bad, beyond) := by
  have htake : (body ++ c1 :: c0 :: beyond).take length.toNat = body := by rw [← hlen, List.take_left]
  have hdrop : (body ++ c1 :: c0 :: beyond).drop length.toNat = c1 :: c0 :: beyond := by rw [← hlen, List.drop_left]
  simp only [receiveFrame, dropWhile_skipped hskip, htake, hdrop]

/-- A frame with its right CRC, as it stands on the line. -/
theorem receiveFrame_onTheLine (kind : Byte) {body : List Byte} (hbody : body.length ≤ 255) (beyond : List Byte) :
    receiveFrame l (skipped ++ (onTheLine kind body ++ beyond)) = (judgeBody l kind body, beyond) := by
  have hlen : body.length = (byteOf body.length).toNat := by simp [byteOf]; omega
  have hcrc (w : Word16) : word16 (byteOf (w.toNat / 256)) (byteOf w.toNat) = w := by
    refine BitVec.eq_of_toNat_eq ?_
    have := w.isLt
    rw [word16_toNat]
    simp only [byteOf, BitVec.toNat_ofNat]
    omega
  have hcomplete := receiveFrame_complete l hskip (kind := kind) (c1 := byteOf ((crc16 (kind :: byteOf body.length :: body)).toNat / 256))
    (c0 := byteOf (crc16 (kind :: byteOf body.length :: body)).toNat) (beyond := beyond) hlen
  rw [if_pos (hcrc _)] at hcomplete
  have hline : onTheLine kind body ++ beyond = 0xA5 :: kind :: byteOf body.length :: (body
      ++ byteOf ((crc16 (kind :: byteOf body.length :: body)).toNat / 256)
      :: byteOf (crc16 (kind :: byteOf body.length :: body)).toNat :: beyond) := by
    simp [onTheLine]
  rw [hline]
  exact hcomplete

end

/-! ## Judged frames (R98, R99, R101, R102) -/

theorem LinkState.running_iff (k : LinkState) : k.running = true ↔ k = .training ∨ k = .enumerating ∨ k = .up := by
  cases k <;> simp [LinkState.running]

section
variable {l : Link} {s : State}

/-- In OFF and DOWN the line is ignored. -/
theorem takeLine_quiet (hquiet : ¬ (s.linkState l = .training ∨ s.linkState l = .enumerating ∨ s.linkState l = .up)) (bytes : List Byte) :
    takeLine l bytes s = s := by
  have hrun : (s.linkState l).running = false := by rw [← Bool.not_eq_true, LinkState.running_iff]; exact hquiet
  simp [takeLine, hrun]

/-- In a running state the next frame is taken, and what is beyond it kept. -/
theorem takeLine_running (hrun : s.linkState l = .training ∨ s.linkState l = .enumerating ∨ s.linkState l = .up) {bytes beyond : List Byte}
    {f : Received} (hf : receiveFrame l ((s.links.get l).received ++ bytes) = (f, beyond)) :
    takeLine l bytes s = takeReceived l f (s.modLink l fun k => { k with received := beyond }) := by
  have hrun : (s.linkState l).running = true := (LinkState.running_iff _).2 hrun
  simp [takeLine, hrun, hf]

theorem takeBadFrame_eq (hrun : s.linkState l = .training ∨ s.linkState l = .enumerating ∨ s.linkState l = .up) (beyond : List Byte) :
    takeBadFrame l (s.modLink l fun k => { k with received := beyond }) = s.afterBadFrame l beyond := by
  have hrun : ((s.modLink l fun k => { k with received := beyond }).linkState l).running = true := by
    simpa [State.linkState] using (LinkState.running_iff _).2 hrun
  have hbad : ((s.modLink l fun k => { k with received := beyond }).modLink l fun k =>
      { k with badFrames := satInc k.badFrames, consecutiveBad := k.consecutiveBad + 1, activity := true,
               syncRun := if k.state = .training then 0 else k.syncRun })
      = s.modLink l fun k =>
        { k with badFrames := satInc k.badFrames, consecutiveBad := k.consecutiveBad + 1, activity := true, received := beyond,
                 syncRun := if k.state = .training then 0 else k.syncRun } := State.modLink_modLink ..
  simp only [takeBadFrame, hrun, Bool.not_true, Bool.false_eq_true, if_false, hbad, State.afterBadFrame]
  simp only [State.modLink_links, get_upd, if_true]
  by_cases hfew : (s.links.get l).consecutiveBad + 1 < 8
  · rw [if_pos hfew, if_neg (by omega)]
  · rw [if_neg hfew, if_pos (by omega)]

/-- TRAINING discards a good frame that is no SYNC. -/
theorem takeGoodFrame_training (htraining : s.linkState l = .training) (f : State → State) (beyond : List Byte) :
    takeGoodFrame l f (s.modLink l fun k => { k with received := beyond }) = s.afterDiscarded l beyond := by
  have hstate : (s.links.get l).state = .training := htraining
  have hlink : (s.modLink l fun k => { k with received := beyond }).linkState l = .training := by
    simpa [State.linkState] using hstate
  simp only [takeGoodFrame, hlink]
  rw [State.modLink_modLink, State.afterDiscarded]
  exact State.modLink_congr l (by simp [LinkRecord.goodFrame, hstate])

/-- A serving link hands a good frame on. -/
theorem takeGoodFrame_serving (hserving : s.linkState l = .enumerating ∨ s.linkState l = .up) (f : State → State) (beyond : List Byte) :
    takeGoodFrame l f (s.modLink l fun k => { k with received := beyond }) = f (s.afterGoodFrame l beyond) := by
  have hstate : (s.links.get l).state = .enumerating ∨ (s.links.get l).state = .up := hserving
  have hgood : ((s.modLink l fun k => { k with received := beyond }).modLink l fun k => k.goodFrame false) = s.afterGoodFrame l beyond := by
    rw [State.modLink_modLink, State.afterGoodFrame]
    refine State.modLink_congr l ?_
    rcases hstate with h | h <;> simp [LinkRecord.goodFrame, h]
  have hlink : (s.modLink l fun k => { k with received := beyond }).linkState l = s.linkState l := by simp [State.linkState]
  rcases hserving with h | h <;> simp only [takeGoodFrame, hlink, h, hgood]

end

/-- IDENTs are handed over one after another. -/
theorem foldl_beginIdent (l : Link) (c : IdentCause) (xs : List Node) (hxs : ∀ n ∈ xs, nodeLink n = l) (s : State) :
    let t := xs.foldl (fun s n => beginIdent n c s) s
    (∀ n, t.nodes.get n = if n ∈ xs then { s.nodes.get n with presence := .identifying, cause := some c } else s.nodes.get n)
    ∧ t = { s.modArbiter l fun a => { a with idents := a.idents ++ xs } with nodes := t.nodes } := by
  induction xs generalizing s with
  | nil =>
    refine ⟨fun n => by simp, ?_⟩
    simp only [List.append_nil, State.modArbiter, upd_id, List.foldl_nil]
  | cons x xs ih =>
    obtain ⟨hnodes, hrest⟩ := ih (fun n hn => hxs n (List.mem_cons_of_mem _ hn)) (beginIdent x c s)
    refine ⟨fun n => ?_, ?_⟩
    · refine (hnodes n).trans ?_
      simp only [beginIdent, issueIdent, State.modArbiter_nodes, State.modNode_nodes, get_upd, List.mem_cons]
      by_cases hn : n = x
      · subst hn; simp
      · simp [hn]
    · refine hrest.trans ?_
      have hx : nodeLink x = l := hxs x List.mem_cons_self
      simp only [beginIdent, issueIdent, State.modArbiter, State.modNode, hx, upd_upd, List.append_assoc, List.singleton_append,
        List.foldl_cons]

/-- R86, R101: the fourth SYNC. -/
theorem enterEnumerating_eq (l : Link) (s : State) :
    (∀ n, (enterEnumerating l s).nodes.get n = if nodeLink n = l then
      { s.nodes.get n with presence := .identifying, cause := some .enumeration } else s.nodes.get n)
    ∧ enterEnumerating l s = { (s.modLink l fun k =>
          { k with state := .enumerating, stamp := low16 s.timeBase, deadline := none, silence := 0 }).modArbiter l
        fun a => { a with idents := a.idents ++ (List.finRange 8).filter fun n => nodeLink n = l }
      with nodes := (enterEnumerating l s).nodes } := by
  obtain ⟨hnodes, hrest⟩ := foldl_beginIdent l .enumeration (linkNodes l) (fun n hn => by simpa [linkNodes] using hn)
    (s.modLink l fun k => { k with state := .enumerating, stamp := low16 s.timeBase, deadline := none, silence := 0 })
  refine ⟨fun n => (hnodes n).trans ?_, hrest⟩
  simp [linkNodes]

/-- Settles O45: what the receiver makes of the bytes, and what a bad frame and a SYNC do. -/
theorem badAndSyncFrames : Obligations.BadAndSyncFrames := by
  refine ⟨⟨rfl, crc16_append⟩, fun l bytes s frame hb => ?_⟩
  intro running line bad
  have hexec := exec_frame hb s
  have hbad {beyond : List Byte} (hrun : running) (hf : receiveFrame l line = (.bad, beyond)) : bad beyond := by
    rw [takeLine_running hrun hf] at hexec
    exact hexec.trans (congrArg Host.Outcome.next (takeBadFrame_eq hrun beyond))
  refine ⟨fun hquiet => hexec.trans (congrArg Host.Outcome.next (takeLine_quiet hquiet bytes)), fun hrun hno => hbad hrun (receiveFrame_noMarker l hno),
    fun skipped after hrun hline hskip => ⟨fun hlen => ?_, fun kind length rest hafter hlen => ?_,
      fun kind length body c1 c0 beyond hafter hlen => ?_, fun beyond hsync => ?_⟩⟩
  · exact hbad hrun (hline ▸ receiveFrame_cutHeader l hskip hlen)
  · exact hbad hrun (hline ▸ hafter ▸ receiveFrame_cutBody l hskip hlen)
  · have hframe := receiveFrame_complete l hskip (kind := kind) (c1 := c1) (c0 := c0) (beyond := beyond) hlen
    rw [← hafter, ← hline] at hframe
    refine ⟨fun hcrc => hbad hrun ?_, fun hkind => hbad hrun ?_, fun hkind hbody => hbad hrun ?_⟩
    · rw [hframe, if_neg fun h => hcrc (by rw [← h, word16_toNat])]
    · obtain ⟨h1, h3, h4, h5⟩ := hkind
      rw [hframe, judgeBody, if_neg h1, if_neg h3, if_neg h4, if_neg h5, ite_self]
    · rw [hframe, judgeBody, if_pos hkind, if_neg hbody, ite_self]
  · intro good
    have hf : receiveFrame l line = (.sync, beyond) := by
      rw [hline, hsync]
      exact receiveFrame_onTheLine l hskip 0x01 (by simp) beyond
    rw [takeLine_running hrun hf] at hexec
    have hstate : (s.modLink l fun k => { k with received := beyond }).linkState l = s.linkState l := by simp [State.linkState]
    have hrunning : ((s.modLink l fun k => { k with received := beyond }).linkState l).running = true := by
      rw [hstate]; exact (LinkState.running_iff _).2 hrun
    have hgood : ((s.modLink l fun k => { k with received := beyond }).modLink l fun k => k.goodFrame true) = good :=
      State.modLink_modLink ..
    have htake : takeSync l (s.modLink l fun k => { k with received := beyond })
        = if good.linkState l = .training ∧ 4 ≤ (good.links.get l).syncRun then enterEnumerating l good else good := by
      simp only [takeSync, hrunning, Bool.not_true, Bool.false_eq_true, if_false, hgood]
    have hgoodState : good.linkState l = s.linkState l := by simp [good, State.linkState]
    have hgoodRun : (good.links.get l).syncRun
        = if s.linkState l = .training then (s.links.get l).syncRun + 1 else (s.links.get l).syncRun := by
      simp only [good, State.modLink_links, get_upd, if_true]
      rfl
    refine ⟨fun hstay => ?_, fun htraining hfour => ?_⟩
    · refine hexec.trans (congrArg (fun u => Host.Outcome.next (grants u)) (htake.trans (if_neg ?_)))
      rw [hgoodState, hgoodRun]
      rintro ⟨htraining, hfour⟩
      rw [if_pos htraining] at hfour
      rcases hstay with h | h
      · exact h htraining
      · omega
    · obtain ⟨hnodes, hrest⟩ := enterEnumerating_eq l good
      have henter : good.linkState l = .training ∧ 4 ≤ (good.links.get l).syncRun := by
        rw [hgoodState, hgoodRun, if_pos htraining]
        exact ⟨htraining, hfour⟩
      exact ⟨enterEnumerating l good,
        hexec.trans (congrArg (fun u => Host.Outcome.next (grants u)) (htake.trans (if_pos henter))), hnodes, hrest⟩

end Sys2Proof.Machine

/-!
# RESPONSE frames and the ends of requests (sections 7.3 and 5.5)
-/

namespace Sys2Proof.Machine

set_option Elab.async false

/-! ## RESPONSE frames (R117, R119, R120) -/

theorem frameNode_eq_some_iff (l : Link) (b : Byte) (n : Node) :
    frameNode l b = some n ↔ nodeLink n = l ∧ b.toNat = nodeAddress n := by
  simp only [frameNode, nodeAt, nodeLink, nodeAddress]
  split
  · next h =>
    rw [Option.some.injEq, Fin.ext_iff, Fin.ext_iff]
    dsimp only
    omega
  · next h =>
    simp only [reduceCtorEq, false_iff, Fin.ext_iff]
    omega

theorem frameNode_eq_none {l : Link} {b : Byte} (h : b.toNat = 0 ∨ 4 < b.toNat) : frameNode l b = none := by
  rw [frameNode, nodeAt, dif_neg (by omega)]

theorem responseStatus_eq_none {b : Byte} (h : 3 < b.toNat) : responseStatus b = none := by
  have hne (k : Nat) (hk : k ≤ 3) : b ≠ BitVec.ofNat 8 k := fun hb => by
    rw [hb] at h
    simp only [BitVec.toNat_ofNat] at h
    omega
  simp [responseStatus, hne 0 (by omega), hne 1 (by omega), hne 2 (by omega), hne 3 (by omega)]

theorem judgeResponse_length (l : Link) {body : List Byte} (h : body.length < 3 ∨ 11 < body.length) : judgeResponse l body = .bad := by
  unfold judgeResponse
  split
  · next tr node status data =>
    simp only [List.length_cons] at h
    split
    · rw [if_neg (by omega)]
    · rfl
  · rfl

section
variable {l : Link} {s : State} {t : Tag} {round : BitVec 2} {n : Node} {status : Reason} {data : List Byte}

theorem State.matched_eq_some_iff (r : Request) :
    s.matched l t round n status data = some r ↔ s.request l t = some r ∧ r.sentOnce = true
      ∧ ((s.arbiters.get l).tags.get t).round = round ∧ r.node = n ∧ data.length = r.answerLength status := by
  unfold State.matched
  cases hr : s.request l t with
  | none => simp
  | some x =>
    simp only [Option.ite_none_right_eq_some, Option.some.injEq]
    constructor
    · rintro ⟨h, rfl⟩
      exact ⟨rfl, h⟩
    · rintro ⟨rfl, h⟩
      exact ⟨h, rfl⟩

theorem takeResponse_stray (h : s.matched l t round n status data = none) :
    takeResponse l t round n status data s = s.modLink l fun k => { k with strays := satInc k.strays } := by
  simp only [takeResponse, h]

theorem takeResponse_busy {r : Request} (h : s.matched l t round n status data = some r) (hbusy : status = .busy)
    (hleft : r.retriesLeft = true) : takeResponse l t round n status data s = resend l t s := by
  simp only [takeResponse, h]
  exact if_pos ⟨hbusy, hleft⟩

theorem takeResponse_ends {r : Request} (h : s.matched l t round n status data = some r)
    (hends : status ≠ .busy ∨ ¬ r.retriesLeft = true) : takeResponse l t round n status data s = endRequest l t r status data s := by
  simp only [takeResponse, h]
  exact if_neg fun ⟨hbusy, hleft⟩ => hends.elim (· hbusy) (· hleft)

end

/-- Settles O46: the frame is judged, and a good one discarded, counted as stray, resent or the end of its request. -/
theorem responseMatchedOrStray : Obligations.ResponseMatchedOrStray := by
  refine ⟨frameNode_eq_some_iff, rfl, fun l bytes skipped body beyond s frame hb hline hskip hbody => ?_⟩
  have hexec := exec_frame hb s
  have hf : receiveFrame l ((s.links.get l).received ++ bytes) = (judgeResponse l body, beyond) := by
    rw [hline, List.append_assoc]
    exact receiveFrame_onTheLine l hskip 0x03 hbody beyond
  refine ⟨fun hquiet => ?_, fun hrun => ?_⟩
  · refine hexec.trans (congrArg Host.Outcome.next (takeLine_quiet ?_ bytes))
    rcases hquiet with h | h <;> simp [h]
  rw [takeLine_running hrun hf] at hexec
  have hbad (h : judgeResponse l body = .bad) : exec frame s = .next (s.afterBadFrame l beyond) := by
    rw [h] at hexec
    exact hexec.trans (congrArg Host.Outcome.next (takeBadFrame_eq hrun beyond))
  refine ⟨fun hlen => hbad (judgeResponse_length l hlen), fun tr node status data hfields hdata => ⟨fun hrange => hbad ?_, fun n st hn hst => ?_⟩⟩
  · rw [hfields]
    rcases hrange with h | h | h
    · simp only [judgeResponse, frameNode_eq_none (l := l) (.inl h)]
    · simp only [judgeResponse, frameNode_eq_none (l := l) (.inr h)]
    · simp only [judgeResponse, responseStatus_eq_none h]
      cases frameNode l node <;> rfl
  · intro tag good matched
    have hgoodFrame : judgeResponse l body = .response tag (BitVec.ofNat 2 (tr.toNat / 16)) n st data := by
      simp only [hfields, judgeResponse, hn, hst, if_pos hdata]
      rfl
    rw [hgoodFrame] at hexec
    have hmatched (r : Request) : good.matched l tag (BitVec.ofNat 2 (tr.toNat / 16)) n st data = some r ↔ matched r := by
      have hround (b : BitVec 2) : b = BitVec.ofNat 2 (tr.toNat / 16) ↔ b.toNat = tr.toNat / 16 % 4 := by
        rw [← BitVec.toNat_inj, BitVec.toNat_ofNat]
      have hrequest : good.request l tag = s.request l tag := rfl
      have htags : good.arbiters = s.arbiters := rfl
      rw [State.matched_eq_some_iff, hrequest, htags, hround]
      refine and_congr Iff.rfl (and_congr Iff.rfl (and_congr Iff.rfl (and_congr Iff.rfl (Eq.congr_right ?_))))
      unfold Request.answerLength
      cases r.kind <;> rfl
    have hserving (h : s.linkState l ≠ .training) : exec frame s = .next (grants (takeResponse l tag (BitVec.ofNat 2 (tr.toNat / 16)) n st data good)) :=
      hexec.trans (congrArg (fun u => Host.Outcome.next (grants u)) (takeGoodFrame_serving (hrun.resolve_left h) _ beyond))
    refine ⟨fun htraining => ?_, fun hnot hno => ?_, fun r hnot hm => ?_⟩
    · exact hexec.trans (congrArg (fun u => Host.Outcome.next (grants u)) (takeGoodFrame_training htraining _ beyond))
    · rw [hserving hnot, takeResponse_stray]
      exact Option.eq_none_iff_forall_ne_some.2 fun r hr => hno r ((hmatched r).1 hr)
    · intro left again
      have hr : good.request l tag = some r := hm.1
      refine ⟨fun hbusy hleft => ?_, fun hends => ?_⟩
      · rw [hserving hnot, takeResponse_busy ((hmatched r).2 hm) hbusy (r.retriesLeft_iff.2 hleft), resend_eq hr]
        rfl
      · rw [hserving hnot, takeResponse_ends ((hmatched r).2 hm) (hends.imp_right (mt r.retriesLeft_iff.1))]

/-! ## The end of a request (R90, R97, R118) -/

/-- The owner's part of an ending leaves the node records. -/
theorem handOver_nodes (l : Link) (r : Request) (o : Reason) (data : List Byte) (s : State) : (handOver l r o data s).nodes = s.nodes :=
  handOver_read (g := State.nodes) (fun _ _ _ => rfl) (fun _ _ _ => rfl) (fun _ _ _ => rfl) (fun _ _ _ => rfl) ..

theorem freeTag_nodes (l : Link) (t : Tag) (r : Request) (s : State) : (freeTag l t r s).nodes = s.nodes :=
  freeTag_read (g := State.nodes) (fun _ _ _ => rfl) (fun _ _ => rfl) ..

theorem freeTag_writeQueues (l : Link) (t : Tag) (r : Request) (s : State) : (freeTag l t r s).writeQueues = s.writeQueues :=
  freeTag_read (g := State.writeQueues) (fun _ _ _ => rfl) (fun _ _ => rfl) ..

/-- A node's OUTSTANDING record, where it has no other. -/
theorem WriteQueue.outstanding_of_unique {q : WriteQueue} {n : Node} {w : WriteRecord} (hmem : w ∈ q.order) (hnode : w.node = n)
    (hstate : w.state = .outstanding) (honly : ∀ x ∈ q.order, x.node = n → x.state = .outstanding → x = w) :
    q.outstanding n = some w := by
  cases h : q.outstanding n with
  | none =>
    rw [WriteQueue.outstanding, List.find?_eq_none] at h
    exact absurd (decide_eq_true (And.intro hnode hstate)) (h w hmem)
  | some x =>
    obtain ⟨hx, hxnode, hxstate⟩ := outstanding_some h
    rw [honly x hx hxnode hxstate]

/-- R97, R118: the freed tag and the withdrawn copy. -/
theorem freeTag_eq (l : Link) (t : Tag) (r : Request) (s : State) :
    ((s.arbiters.get l).mayHaveBegun t = false ∧ freeTag l t r s = withdraw l t s)
    ∨ ((s.arbiters.get l).mayHaveBegun t = true ∧
        (freeTag l t r s = withdraw l t { s with choices := s.choices + 1 }
          ∨ freeTag l t r s = withdraw l t (({ s with choices := s.choices + 1 } : State).modArbiter l fun a =>
              { a with onLine := some (s.copyBytes l t r) }))) := by
  unfold freeTag
  rcases keepBegun_cases l t r s with ⟨hno, h⟩ | ⟨hyes, h | h⟩
  · exact .inl ⟨hno, by rw [h]⟩
  · exact .inr ⟨hyes, .inl (by rw [h])⟩
  · exact .inr ⟨hyes, .inr (by rw [h])⟩

theorem Arbiter.mayHaveBegun_iff (a : Arbiter) (t : Tag) : a.mayHaveBegun t = true ↔ a.onLine = none ∧ a.txOrder.head? = some t := by
  simp [Arbiter.mayHaveBegun]

theorem withdraw_eq (l : Link) (t : Tag) (s : State) {line : Option (List Byte)} (hline : (s.arbiters.get l).onLine = line) :
    withdraw l t s = s.modArbiter l fun a =>
      { a with tags := upd a.tags t fun tr => { tr with request := none }, txOrder := a.txOrder.filter fun x => x ≠ t, onLine := line } :=
  State.modArbiter_congr l (by subst hline; rfl)

/-- R16: the ending of a poll whose slot has moved on is discarded. -/
theorem State.discards_iff (s : State) (r : Request) :
    s.discards r = true ↔ ∃ i g ep, r.kind = .poll i g ep ∧ ¬ ∃ e ∈ s.entry i, (s.slots.get i).generation = g
      ∧ e.node = r.node ∧ e.first = r.address ∧ e.length = r.length := by
  unfold State.discards
  cases hk : r.kind with
  | poll i g ep =>
    have happly : pollApplies s i g r.node r.address r.length = true ↔ ∃ e ∈ s.entry i, (s.slots.get i).generation = g
        ∧ e.node = r.node ∧ e.first = r.address ∧ e.length = r.length := pollApplies_eq_true_iff
    simp only [Bool.not_eq_true', ← Bool.not_eq_true, happly, RequestKind.poll.injEq]
    constructor
    · exact fun h => ⟨i, g, ep, ⟨rfl, rfl, rfl⟩, h⟩
    · rintro ⟨_, _, _, ⟨rfl, rfl, rfl⟩, h⟩
      exact h
  | fetch | write | ident => simp

/-! What the Node Directory makes of the ending of a READ or WRITE (R89, R90). -/

section
variable {n : Node} {o : Reason} {d : Bool} {s : State}

theorem reportEnding_none (h : s.presence n ≠ .present ∨ o = .busy ∨ (o = .timeout ∧ d = true)) : reportEnding n o d s = s := by
  unfold reportEnding
  rcases h with h | rfl | ⟨rfl, rfl⟩
  · exact if_pos h
  · exact ite_self _
  · exact ite_self _

theorem reportEnding_answer (hp : s.presence n = .present) (ho : o = .ok ∨ o = .refused ∨ o = .badAddress) :
    reportEnding n o d s = s.modNode n fun k => { k with timeouts := 0 } := by
  unfold reportEnding
  rw [if_neg (not_not.2 hp)]
  rcases ho with rfl | rfl | rfl <;> rfl

theorem reportEnding_timeout (hp : s.presence n = .present) :
    reportEnding n .timeout false s =
      if 3 ≤ (s.nodes.get n).timeouts + 1 then loseNode n (s.modNode n fun k => { k with timeouts := k.timeouts + 1 })
      else s.modNode n fun k => { k with timeouts := k.timeouts + 1 } := by
  have hcount : ((s.modNode n fun k => { k with timeouts := k.timeouts + 1 }).nodes.get n).timeouts = (s.nodes.get n).timeouts + 1 := by
    simp
  unfold reportEnding
  rw [if_neg (not_not.2 hp)]
  simp only [Bool.false_eq_true, if_false, hcount]

end

/-- Settles O47: the tag is freed, the owner acts, and the Node Directory counts. -/
theorem endedRequestReachesOwner : Obligations.EndedRequestReachesOwner := by
  intro l t r outcome data s freed withdrawn chosen next
  have hnext : (s.arbiters.get l).mayHaveBegun t = true ↔ next := Arbiter.mayHaveBegun_iff _ _
  refine ⟨fun hno => ?_, fun hyes => ?_, fun hident => ?_, fun owned howned => ?_⟩
  · rcases freeTag_eq l t r s with ⟨-, h⟩ | ⟨hyes, -⟩
    · exact h.trans (withdraw_eq l t s rfl)
    · exact absurd (hnext.1 hyes) hno
  · rcases freeTag_eq l t r s with ⟨hno, -⟩ | ⟨-, h | h⟩
    · exact absurd (hnext.2 hyes) (by simp [hno])
    · exact .inl (h.trans (withdraw_eq l t chosen hyes.1))
    · refine .inr (h.trans ?_)
      rw [withdraw, State.modArbiter_modArbiter]
      rfl
  · have hi : r.isIdent = true := by simp [Request.isIdent, hident]
    simp only [endRequest, hi, if_true]
    rfl
  · intro counted discarded
    have hnotIdent : r.isIdent = false := by
      rcases howned with ⟨i, g, ep, hk, -⟩ | ⟨h, tk, hk, -⟩ | ⟨h, tk, hk, -⟩ | ⟨w, hk, -⟩ <;> simp [Request.isIdent, hk]
    have hhanded : handOver l r outcome data freed = owned := by
      rcases howned with ⟨i, g, ep, hk, ho⟩ | ⟨h, tk, hk, ho⟩ | ⟨h, tk, hk, ho⟩ | ⟨w, hk, hmem, hnode, hstate, honly, ho⟩
      · simp only [handOver, hk, ho]
      · simp only [handOver, hk, ho, finishFetch, Bool.false_eq_true, if_false]
      · simp only [handOver, hk, ho, finishFetch, if_true]
      · have hqueues : freed.writeQueues = s.writeQueues := freeTag_writeQueues ..
        have hw : (freed.writeQueues.get l).outstanding r.node = some w := by
          rw [hqueues]
          exact WriteQueue.outstanding_of_unique hmem hnode hstate honly
        simp only [handOver, hk, hw, ho]
    have hend : endRequest l t r outcome data s = reportEnding r.node outcome (s.discards r) owned := by
      simp only [endRequest, hnotIdent, Bool.false_eq_true, if_false]
      exact congrArg _ hhanded
    have hnodes : owned.nodes = s.nodes := by rw [← hhanded, handOver_nodes]; exact freeTag_nodes ..
    have hpresence : owned.presence r.node = s.presence r.node := by simp [State.presence, hnodes]
    have hdiscards : s.discards r = true ↔ discarded := s.discards_iff r
    refine ⟨fun hquiet => ?_, fun hp ho => ?_, fun hp ho hkept => ?_⟩
    · rw [hend, reportEnding_none]
      rw [hpresence, hdiscards]
      exact hquiet
    · rw [hend, reportEnding_answer (hpresence.trans hp) ho]
    · have hkept : s.discards r = false := by rw [← Bool.not_eq_true, hdiscards]; exact hkept
      have hcount : (owned.nodes.get r.node).timeouts = (s.nodes.get r.node).timeouts := by rw [hnodes]
      rw [hend, ho, hkept, reportEnding_timeout (hpresence.trans hp), hcount]
      exact ⟨fun hfew => if_neg (by omega), fun hmany => if_pos hmany⟩

end Sys2Proof.Machine

/-!
# Events, watches and queries (sections 10.1, 10.2, 10.5 and 11.4)
-/

namespace Sys2Proof.Machine

set_option Elab.async false

/-! ## The arrival of an event (R159, R160) -/

theorem maskedBy_iff (mask : Word16) (k : EventKind) : maskedBy mask k = true ↔ ∃ i, k.maskBit = some i ∧ mask.getLsbD i = true := by
  unfold maskedBy
  cases k.maskBit <;> simp

theorem EventRecord.isOverflow_iff (r : EventRecord) : r.isOverflow = true ↔ r.kind = .overflow := by simp [EventRecord.isOverflow]

theorem any_isOverflow_iff (xs : List EventRecord) : xs.any EventRecord.isOverflow = true ↔ ∃ r ∈ xs, r.kind = .overflow := by
  simp [EventRecord.isOverflow_iff]

section
variable {stamp : Word16} {b : EventBody} {hs : HostState}

theorem HostState.receive_masked (h : maskedBy hs.mask b.kind = true) : hs.receive stamp b = hs := by
  simp only [HostState.receive, h, if_true]

variable (hmask : ¬ maskedBy hs.mask b.kind = true)
include hmask

theorem HostState.receive_counted (hfull : hs.events.any EventRecord.isOverflow = true) :
    hs.receive stamp b = { hs with
      events := hs.events.map fun r => if r.isOverflow then countInto r else r
      countedApart := if copiedOverflow hs.transaction then satInc hs.countedApart else hs.countedApart } := by
  rw [HostState.receive, if_neg hmask, if_pos hfull]

theorem HostState.receive_stored (hfull : ¬ hs.events.any EventRecord.isOverflow = true) (hlen : hs.events.length < 15) :
    hs.receive stamp b =
      { hs with events := hs.events ++ [b.record (hs.eventCounter + 1) stamp], eventCounter := hs.eventCounter + 1 } := by
  rw [HostState.receive, if_neg hmask, if_neg hfull, if_pos hlen]

theorem HostState.receive_overflow (hfull : ¬ hs.events.any EventRecord.isOverflow = true) (hlen : 15 ≤ hs.events.length) :
    hs.receive stamp b =
      { hs with events := hs.events ++ [overflowRecord 1 (hs.eventCounter + 1) stamp], eventCounter := hs.eventCounter + 1 } := by
  rw [HostState.receive, if_neg hmask, if_neg hfull, if_neg (by omega)]

end

theorem State.intAsserted_iff (s : State) (h : Host) :
    s.intAsserted h = true ↔ (s.hosts.get h).notifyEnable = true ∧ (s.hosts.get h).events ≠ [] := by
  simp [State.intAsserted]

theorem countInto_eq (r : EventRecord) :
    (if r.isOverflow then countInto r else r)
      = if r.kind = .overflow then { r with value := if r.value < 255 then r.value + 1 else r.value } else r := by
  simp only [EventRecord.isOverflow_iff, countInto]
  by_cases hv : r.value < 255
  · have hv' : r.value < 255#16 := hv
    simp only [if_pos hv, if_pos hv']
  · have hv' : ¬ r.value < 255#16 := hv
    simp only [if_neg hv, if_neg hv']

theorem copiedOverflow_iff (t : Transaction) :
    copiedOverflow t = true ↔ ∃ start copy sent, t = .controlRead start copy sent ∧ ∃ r ∈ copy.event, r.kind = .overflow := by
  cases t <;> simp [copiedOverflow, Option.any_eq_true, EventRecord.isOverflow_iff]

theorem satInc_byte (x : Byte) : satInc x = if x = 255 then x else x + 1 := by
  have hmax : BitVec.allOnes 8 = 255 := by decide
  rw [satInc, hmax]

/-- Settles O53: one case per branch of the arrival, then broadcasts, mask bits and entry events. -/
theorem eventArrivalStoredOrCounted : Obligations.EventArrivalStoredOrCounted := by
  refine ⟨fun h b s => ?_, fun b s => forHosts_eq .., by decide, by decide, fun i k why s e he => ?_⟩
  · intro hs t full made masked
    have hmasked : maskedBy hs.mask b.kind = true ↔ masked := maskedBy_iff _ _
    have hfulls : hs.events.any EventRecord.isOverflow = true ↔ full := any_isOverflow_iff _
    have hmade {hs' : HostState} (heq : hs.receive (low16 s.timeBase) b = hs') : t = s.modHost h fun _ => hs' := State.modHost_congr h heq
    refine ⟨fun hm => ?_, fun hm hf => ?_, fun hm hf hlen => ?_, fun hm hf hlen => ?_, s.intAsserted_iff h⟩
    · exact State.modHost_eq_self h (HostState.receive_masked (hmasked.2 hm))
    · have hself : t.hosts.get h = hs.receive (low16 s.timeBase) b := by simp [t, notify, hs]
      rw [HostState.receive_counted (mt hmasked.1 hm) (hfulls.2 hf)] at hself
      refine ⟨fun g hg => by simp [t, notify, hg], by rw [hself], ?_, fun hread => ?_, fun hread => ?_⟩
      · rw [hself]
        exact List.map_congr_left fun r _ => countInto_eq r
      · rw [hself]
        dsimp only
        rw [if_pos ((copiedOverflow_iff _).2 hread), satInc_byte]
      · rw [hself]
        refine if_neg fun hcopied => ?_
        obtain ⟨start, copy, sent, ht, r, hr, hk⟩ := (copiedOverflow_iff _).1 hcopied
        exact hread start copy sent ht r hr hk
    · exact State.modHost_congr h (HostState.receive_stored (mt hmasked.1 hm) (mt hfulls.1 hf) hlen)
    · exact State.modHost_congr h (HostState.receive_overflow (mt hmasked.1 hm) (mt hfulls.1 hf) hlen)
  · have heff := SlotEffect.entryEvent he k why
    refine ⟨?_, fun h => (heff.hosts h).trans ?_⟩
    · have haside := heff.aside
      rw [State.SameAside, entryEvent_read (g := State.slots) (fun _ _ _ => rfl), entryEvent_read (g := State.pollQueues) (fun _ _ _ => rfl)]
        at haside
      exact haside
    · have hnotified : (notify h (eventOf k (byteOf i.val) why.code 0) s).hosts.get h
          = (s.hosts.get h).receive (low16 s.timeBase) (eventOf k (byteOf i.val) why.code 0) := by simp [notify]
      rw [hnotified, Entry.tells]
      by_cases hheld : e.holders.get h = none
      · rw [if_pos hheld, if_neg (by simp [Entry.heldBy, hheld])]
      · rw [if_neg hheld, if_pos ((e.heldBy_eq_true_iff h).2 hheld)]

/-! ## Watches (R3, R165) -/

theorem Entry.hasData_iff (e : Entry) : e.hasData = true ↔ ∀ d ∈ e.data, d ≠ none := by
  simp [Entry.hasData, Option.isSome_iff_ne_none]

/-- Settles O54: the equations of one watch's evaluation. -/
theorem watchEvaluatedAgainstBand : Obligations.WatchEvaluatedAgainstBand := by
  refine ⟨Entry.hasData_iff, ⟨rfl, fun bs b => by simp [numberOf]⟩, fun i s => forHosts_eq .., fun i h s hno => evaluateWatch_of_none hno,
    fun i h s e r w he hr hw => ?_⟩
  intro x moved told
  have hzone (z : Zone) (hz : w.zoneOf x = z) (hdata : e.hasData = true) : evaluateWatch i h s = told z := by
    rw [evaluateWatch_eq he hr hw]
    simp only [hdata, Bool.not_true, Bool.false_or, decide_eq_true_eq]
    have hz : w.zoneOf (numberOf (e.data.filterMap id)) = z := hz
    rw [hz]
    simp only [told, eq_comm]
    rfl
  refine ⟨fun hno => ?_, fun hdata hlow => hzone _ (if_pos hlow) hdata, fun hdata hlow hhigh => hzone _ ?_ hdata,
    fun hdata hlow hhigh => hzone _ ?_ hdata⟩
  · rw [evaluateWatch_eq he hr hw]
    simp only [hno, Bool.not_false, Bool.true_or, if_true]
  · rw [Watch.zoneOf, if_neg (by omega), if_neg (by omega)]
  · rw [Watch.zoneOf, if_neg (by omega), if_pos hhigh]

/-! ## QUERY_NODE and QUERY_LINK (R94, R109, R172) -/

theorem exec_queryNode {h : Host} {xb page : Byte} {s t : State} {st : Status} {vs : List Byte}
    (hr : cmdQueryNode h [xb, page] (s.judged .queryNode h [xb, page]) = { status := st, values := vs, state := t }) :
    exec (.queryNode h [xb, page]) s = .next (t.withResult h 0x94 st vs) :=
  exec_row_of_owner (c := .queryNode) (by simp) rfl rfl hr

theorem exec_queryLink {h : Host} {xb page : Byte} {s t : State} {st : Status} {vs : List Byte}
    (hr : cmdQueryLink h [xb, page] (s.judged .queryLink h [xb, page]) = { status := st, values := vs, state := t }) :
    exec (.queryLink h [xb, page]) s = .next (t.withResult h 0x95 st vs) :=
  exec_row_of_owner (c := .queryLink) (by simp) rfl rfl hr

theorem cmdQueryNode_badParam {h : Host} {xb page : Byte} {s : State} (hbad : nodeOfRef xb = none ∨ 1 < page.toNat) :
    cmdQueryNode h [xb, page] s = refuse .badParam s := by
  cases hn : nodeOfRef xb with
  | none => simp only [cmdQueryNode, hn]
  | some n =>
    have hpage : 1 < page.toNat := hbad.resolve_left (by simp [hn])
    have hzero : page ≠ 0 := by rintro rfl; contradiction
    have hone : page ≠ 1 := by rintro rfl; contradiction
    simp only [cmdQueryNode, hn, if_neg hzero, if_neg hone]

theorem cmdQueryLink_badParam {h : Host} {xb page : Byte} {s : State} (hbad : 1 < xb.toNat ∨ 1 < page.toNat) :
    cmdQueryLink h [xb, page] s = refuse .badParam s := by
  cases hl : linkOfByte xb with
  | none => simp only [cmdQueryLink, hl]
  | some l =>
    have hpage : 1 < page.toNat := hbad.resolve_left fun hx => by simp [linkOfByte_eq_none hx] at hl
    have hzero : page ≠ 0 := by rintro rfl; contradiction
    have hone : page ≠ 1 := by rintro rfl; contradiction
    simp only [cmdQueryLink, hl, if_neg hzero, if_neg hone]

theorem byteOf_toNat {n : Nat} (hn : n < 16) : (byteOf n).toNat = n := by
  simp only [byteOf, BitVec.toNat_ofNat]
  omega

theorem nibbles_byteOf {m n : Nat} (hm : m < 16) (hn : n < 16) : nibbles (byteOf m) (byteOf n) = byteOf (m + 16 * n) := by
  rw [nibbles_eq ((byteOf_toNat hm).trans_lt hm) ((byteOf_toNat hn).trans_lt hn), byteOf_toNat hm, byteOf_toNat hn]

theorem nodePage0_eq (r : NodeRecord) : nodePage0 r = byteOf (r.presence.code.toNat + 16 * (identCauseCode r.cause).toNat) ::
    (nodePage0 r).tail := by
  rw [← nibbles_eq]
  · rfl
  · cases r.presence <;> decide
  · cases r.cause with
    | none => decide
    | some c => cases c <;> decide

theorem State.presentCount_eq (s : State) (l : Link) :
    s.presentCount l = (List.finRange 8).countP fun n => nodeLink n = l ∧ s.presence n = .present := by
  simp only [State.presentCount, linkNodes, List.filter_filter, ← List.countP_eq_length_filter]
  exact List.countP_congr fun n _ => by simp [and_comm]

theorem State.inUse_eq (s : State) (l : Link) :
    (s.arbiters.get l).inUse = (List.finRange 8).countP fun t => (s.request l t).isSome := by
  simp only [Arbiter.inUse, ← List.countP_eq_length_filter]
  refine List.countP_congr fun t _ => ?_
  simp [Arbiter.isFree, State.request]

/-- Settles O30: each page is the record's fields, packed as the byte layouts say. -/
theorem queryNodeAndLinkAnswer : Obligations.QueryNodeAndLinkAnswer := by
  intro h xb page s s0 u0 two
  have htwo (w : Word16) : bytes16 w = two w := bytes16_eq w
  have hnode {vs ws : List Byte} (hr : cmdQueryNode h [xb, page] s0 = { status := .ok, values := vs, state := s0 })
      (hv : vs = ws) : exec (.queryNode h [xb, page]) s = .next (s0.withResult h 0x94 .ok ws) := hv ▸ exec_queryNode hr
  have hlink {vs ws : List Byte} (hr : cmdQueryLink h [xb, page] u0 = { status := .ok, values := vs, state := u0 })
      (hv : vs = ws) : exec (.queryLink h [xb, page]) s = .next (u0.withResult h 0x95 .ok ws) := hv ▸ exec_queryLink hr
  refine ⟨fun hbad => exec_queryNode (cmdQueryNode_badParam hbad), fun hbad => exec_queryLink (cmdQueryLink_badParam hbad),
    ?_, ?_⟩
  · intro n hn r c place
    constructor
    · intro hpage
      refine hnode (vs := nodePage0 r) (by simp only [cmdQueryNode, hn, hpage, if_true]; rfl) ?_
      rw [nodePage0_eq]
      refine congrArg _ ?_
      simp only [nodePage0, NodeRecord.modelCode, htwo]
      cases r.identity with
      | none => rfl
      | some i =>
        dsimp only [Option.isSome_some, Option.any_some, Option.map_some, Option.getD_some]
        cases i.sendsNotices <;> rfl
    · intro hpage
      refine hnode (vs := nodePage1 r c) (by simp only [cmdQueryNode, hn, hpage]; rfl) ?_
      have hplace (i : Nat) : waiterNibble c.waiters[i]? = byteOf (place i) ∧ place i < 16 := by
        dsimp only [place]
        cases c.waiters[i]? with
        | none => exact ⟨rfl, by decide⟩
        | some w => exact ⟨rfl, Nat.lt_of_lt_of_le w.host.isLt (by decide)⟩
      rw [nodePage1, (hplace 0).1, (hplace 1).1, nibbles_byteOf (hplace 0).2 (hplace 1).2]
      simp only [htwo]
      cases r.pin <;> cases c.holder <;> rfl
  · intro l hl k
    have hl := linkOfByte_eq_some hl
    constructor
    · intro hpage
      refine hlink (vs := linkPage0 u0 l) (by simp only [cmdQueryLink, hl, hpage, if_true]) ?_
      simp only [linkPage0, htwo, State.presentCount_eq, State.inUse_eq]
      cases (u0.links.get l).autoRestart <;> rfl
    · intro hpage
      refine hlink (vs := linkPage1 k) (by simp only [cmdQueryLink, hl, hpage]; rfl) ?_
      simp only [linkPage1, htwo]

end Sys2Proof.Machine

/-!
# PIN_NODE and UNPIN_NODE

What a node leaving PRESENT does to the node records, what a granted round of requests leaves of them, and the two commands' cases
over the node's presence.
-/

namespace Sys2Proof.Machine
set_option Elab.async false

/-! ## What the parts of leaving PRESENT keep (R80) -/

section
variable {β : Type} {g : State → β}

theorem endNodeRequests_read (hH : IgnoresHosts g) (hS : IgnoresSlots g) (hP : IgnoresPolls g) (hW : IgnoresWrites g)
    (hA : IgnoresArbiters g) (hC : IgnoresChoices g) (n : Node) (why : Reason) (s : State) :
    g (endNodeRequests n why s) = g s := by
  simp only [endNodeRequests, endFetches_read hH hA, endRequests_read hH hS hP hW hA hC]

theorem leaveNodeWrites_read (hH : IgnoresHosts g) (hS : IgnoresSlots g) (hP : IgnoresPolls g) (hW : IgnoresWrites g)
    (n : Node) (why : Reason) (s : State) : g (leaveNodeWrites n why s) = g s := by
  unfold leaveNodeWrites lapseReservations holdWrites failNodeWrites
  simp only [hW]
  split <;> simp only [hW, failWrites_read hH hS hP hW]

end

theorem leavePresent_nodes (n : Node) (p : Presence) (cause : Option IdentCause) (why : Reason) (s : State) :
    (leavePresent n p cause why s).nodes
      = upd s.nodes n fun r => { r with presence := p, cause := cause, timeouts := 0 } := by
  unfold leavePresent
  simp only
  rw [suspendNode_read (g := State.nodes) (fun _ _ _ => rfl) (fun _ _ _ => rfl)]
  refine (eitherOrder_read (g := State.nodes) (fun _ _ => rfl) _ _ _ (fun s => ?_) (fun s => ?_) _).trans rfl
  · exact endNodeRequests_read (g := State.nodes) (fun _ _ _ => rfl) (fun _ _ _ => rfl) (fun _ _ _ => rfl) (fun _ _ _ => rfl)
      (fun _ _ _ => rfl) (fun _ _ => rfl) ..
  · exact leaveNodeWrites_read (g := State.nodes) (fun _ _ _ => rfl) (fun _ _ _ => rfl) (fun _ _ _ => rfl) (fun _ _ _ => rfl) ..

theorem leavePresent_presence (n : Node) (p : Presence) (cause : Option IdentCause) (why : Reason) (s : State) :
    (leavePresent n p cause why s).presence n = p := by
  simp [State.presence, leavePresent_nodes]

theorem grants_nodes (s : State) : (grants s).nodes = s.nodes :=
  grants_read (g := State.nodes) (fun _ _ _ => rfl) (fun _ _ _ => rfl) (fun _ _ _ => rfl) (fun _ _ _ => rfl) s

theorem grants_presence (s : State) (n : Node) : (grants s).presence n = s.presence n := by
  simp only [State.presence, grants_nodes]

theorem beginIdent_presence (n : Node) (c : IdentCause) (s : State) : (beginIdent n c s).presence n = .identifying := by
  simp [State.presence, beginIdent, issueIdent]

/-! ## The two commands (R92, R93) -/

theorem NodeRecord.matchesPin_pinned (r : NodeRecord) (p : Pin) :
    { r with pin := some p : NodeRecord }.matchesPin = true
      ↔ ∃ i ∈ r.identity, i.vendor = p.vendor ∧ i.model = p.model := by
  simp only [NodeRecord.matchesPin, pinAccepts, Option.any_eq_true, decide_eq_true_eq, Option.mem_def,
    eq_comm (a := p.vendor), eq_comm (a := p.model)]

theorem exec_pinNode {h : Host} {nb v1 v0 m1 m0 : Byte} {s t : State} {n : Node} {code : Byte} (hsetup : h = s.setupHost)
    (hn : nodeOfRef nb = some n)
    (hpin : pinNode n { vendor := word16 v1 v0, model := word16 m1 m0 } (s.judged .pinNode h [nb, v1, v0, m1, m0]) = t)
    (hcode : (t.presence n).code = code) :
    exec (.pinNode h [nb, v1, v0, m1, m0]) s = .next ((grants t).withResult h 0xA4 .ok [code]) := by
  refine exec_row_of_setupHost (c := .pinNode) (by simp) rfl hsetup ?_
  simp only [Command.owner, cmdPinNode, hn, hpin, grants_presence, hcode]

theorem exec_unpinNode {h : Host} {nb : Byte} {s t : State} {n : Node} {code : Byte} (hsetup : h = s.setupHost)
    (hn : nodeOfRef nb = some n) (hpin : unpinNode n (s.judged .unpinNode h [nb]) = t) (hcode : (t.presence n).code = code) :
    exec (.unpinNode h [nb]) s = .next ((grants t).withResult h 0xA5 .ok [code]) := by
  refine exec_row_of_setupHost (c := .unpinNode) (by simp) rfl hsetup ?_
  simp only [Command.owner, cmdUnpinNode, hn, hpin, grants_presence, hcode]

theorem State.modNode_presence_same {f : NodeRecord → NodeRecord} (hf : ∀ r, (f r).presence = r.presence) (n : Node) (s : State) :
    (s.modNode n f).presence n = s.presence n := by
  simp [State.presence, hf]

section
variable {h : Host} {nb v1 v0 m1 m0 : Byte} {n : Node} {s : State}

theorem exec_pinNode_badParam (hsetup : h = s.setupHost) (hbad : nodeOfRef nb = none) :
    exec (.pinNode h [nb, v1, v0, m1, m0]) s
      = .next ((s.judged .pinNode h [nb, v1, v0, m1, m0]).withResult h 0xA4 .badParam []) :=
  exec_row_of_setupHost (c := .pinNode) (by simp) rfl hsetup (by simp only [Command.owner, cmdPinNode, hbad]; rfl)

theorem exec_unpinNode_badParam (hsetup : h = s.setupHost) (hbad : nodeOfRef nb = none) :
    exec (.unpinNode h [nb]) s = .next ((s.judged .unpinNode h [nb]).withResult h 0xA5 .badParam []) :=
  exec_row_of_setupHost (c := .unpinNode) (by simp) rfl hsetup (by simp only [Command.owner, cmdUnpinNode, hbad]; rfl)

/-- The pin is in the record before it is compared with the identity. -/
def State.pinned (s : State) (n : Node) (p : Pin) : State := s.modNode n fun r => { r with pin := some p }

variable {p : Pin}

theorem State.pinned_presence : (s.pinned n p).presence n = s.presence n :=
  State.modNode_presence_same (f := fun r => { r with pin := some p }) (fun _ => rfl) n s

theorem State.pinned_matches :
    ((s.pinned n p).nodes.get n).matchesPin = true ↔ ∃ i ∈ (s.nodes.get n).identity, i.vendor = p.vendor ∧ i.model = p.model := by
  rw [State.pinned, State.modNode_nodes, get_upd_self]
  exact NodeRecord.matchesPin_pinned ..

theorem State.pinned_model :
    ((s.pinned n p).nodes.get n).modelCode = ((s.nodes.get n).identity.map Identity.model).getD 0 := by
  rw [State.pinned, State.modNode_nodes, get_upd_self]
  rfl

theorem pinNode_eq : pinNode n p s =
    if s.presence n = .present ∧ ((s.pinned n p).nodes.get n).matchesPin = false then
      leavePresent n .quarantined none .quarantined
        (nodeEvent .nodeQuarantined n .pin (((s.nodes.get n).identity.map Identity.model).getD 0) (s.pinned n p))
    else if s.presence n = .quarantined ∧ ((s.pinned n p).nodes.get n).matchesPin = true then beginIdent n .lift (s.pinned n p)
    else s.pinned n p := by
  rw [← State.pinned_model (p := p), ← State.pinned_presence (p := p)]
  change (let t := s.pinned n p; _) = _
  unfold pinNode
  dsimp only
  rw [← State.pinned]
  generalize (s.pinned n p).presence n = q
  generalize ((s.pinned n p).nodes.get n).matchesPin = b
  cases q <;> cases b <;> rfl

theorem unpinNode_lifts (hp : s.presence n = .quarantined) :
    unpinNode n s = beginIdent n .lift (s.modNode n fun r => { r with pin := none }) := by
  unfold unpinNode
  dsimp only
  rw [if_pos ((State.modNode_presence_same (f := fun r => { r with pin := none }) (fun _ => rfl) n s).trans hp)]

theorem unpinNode_stays (hp : s.presence n ≠ .quarantined) : unpinNode n s = s.modNode n fun r => { r with pin := none } := by
  unfold unpinNode
  dsimp only
  rw [if_neg ((State.modNode_presence_same (f := fun r => { r with pin := none }) (fun _ => rfl) n s).symm ▸ hp)]

end

/-- Settles O37: one case per presence, for a pin that agrees and for one that does not. -/
theorem pinAndUnpinDecidePresence : Obligations.PinAndUnpinDecidePresence := by
  intro h nb v1 v0 m1 m0 s hsetup ps s0 u0 lifted
  refine ⟨fun hbad => ⟨exec_pinNode_badParam hsetup hbad, exec_unpinNode_badParam hsetup hbad⟩, ?_⟩
  intro n hn s1 u1 agrees pinned
  let pin : Pin := { vendor := word16 v1 v0, model := word16 m1 m0 }
  have hyes (hyes : agrees) : ((s0.pinned n pin).nodes.get n).matchesPin = true := State.pinned_matches.2 hyes
  have hno (hno : ¬ agrees) : ((s0.pinned n pin).nodes.get n).matchesPin = false := by
    rw [← Bool.not_eq_true]; exact mt State.pinned_matches.1 hno
  have hpin {t : State} {p : Presence} (hpin : pinNode n pin s0 = t) (hp : t.presence n = p) : pinned t p.code :=
    exec_pinNode hsetup hn hpin (congrArg Presence.code hp)
  have hkept {p : Presence} (hp : s0.presence n = p) : s1.presence n = p :=
    (State.pinned_presence (p := pin)).trans hp
  have hstays {p : Presence} (hp : s0.presence n = p) (hpresent : p ≠ .present) (hquarantined : p ≠ .quarantined) : pinned s1 p.code := by
    refine hpin ?_ (hkept hp)
    rw [pinNode_eq, hp, if_neg (fun hc => hpresent hc.1), if_neg (fun hc => hquarantined hc.1)]
    rfl
  refine ⟨fun hp ha => hpin (p := .present) ?_ (hkept hp), fun hp ha => hpin (p := .quarantined) ?_ (leavePresent_presence ..),
    fun hp ha => hpin (p := .identifying) ?_ (beginIdent_presence n .lift s1), fun hp ha => hpin (p := .quarantined) ?_ (hkept hp),
    fun hp => hstays (p := .unknown) hp (by decide) (by decide), fun hp => hstays (p := .absent) hp (by decide) (by decide),
    fun hp => hstays (p := .identifying) hp (by decide) (by decide), fun hp => ?_, fun hp => ?_⟩
  · rw [pinNode_eq, hp, hyes ha, if_neg (by simp), if_neg (by simp)]
    rfl
  · rw [pinNode_eq, if_pos ⟨hp, hno ha⟩]
    rfl
  · rw [pinNode_eq, hp, hyes ha, if_neg (by simp), if_pos ⟨rfl, rfl⟩]
    rfl
  · rw [pinNode_eq, hp, hno ha, if_neg (by simp), if_neg (by simp)]
    rfl
  · exact exec_unpinNode hsetup hn (unpinNode_lifts hp) (congrArg Presence.code (beginIdent_presence ..))
  · exact exec_unpinNode hsetup hn (unpinNode_stays hp) (congrArg Presence.code
      (State.modNode_presence_same (f := fun r => { r with pin := none }) (fun _ => rfl) n u0))

end Sys2Proof.Machine

/-!
# The host ports

The bytes of a control window read area by area, the removal of the event read, and the address bytes of window and control
transactions.
-/

namespace Sys2Proof.Machine
set_option Elab.async false

/-! ## The areas of the control window (R147, R169) -/

section
variable (c : ControlCopy) {p : Nat}

theorem controlByte_result (hp : p ≤ 0x0D) : controlByte c p = (resultArea c.result)[p - 0]?.getD 0 := by
  simp only [controlByte, areaByte]
  rw [if_pos (by omega)]
  rfl

theorem controlByte_event (hlow : 0x10 ≤ p) (hhigh : p ≤ 0x1B) : controlByte c p = (eventArea c.event)[p - 0x10]?.getD 0 := by
  simp only [controlByte, areaByte]
  rw [if_neg (by omega), if_pos (by omega)]
  rfl

theorem controlByte_report (hlow : 0x20 ≤ p) (hhigh : p ≤ 0x2B) :
    controlByte c p = (reportArea c.report)[p - 0x20]?.getD 0 := by
  simp only [controlByte, areaByte]
  rw [if_neg (by omega), if_neg (by omega), if_pos (by omega)]
  rfl

theorem controlByte_fetch (hlow : 0x30 ≤ p) (hhigh : p ≤ 0x3D) : controlByte c p = (fetchArea c.fetch)[p - 0x30]?.getD 0 := by
  simp only [controlByte, areaByte]
  rw [if_neg (by omega), if_neg (by omega), if_neg (by omega), if_pos (by omega)]
  rfl

theorem controlByte_partId (hlow : 0x40 ≤ p) (hhigh : p ≤ 0x47) : controlByte c p = (partIdArea c)[p - 0x40]?.getD 0 := by
  simp only [controlByte, areaByte]
  rw [if_neg (by omega), if_neg (by omega), if_neg (by omega), if_neg (by omega), if_pos (by omega)]
  rfl

/-- The positions between and past the five areas. -/
theorem controlByte_gap (hp : p = 0x0E ∨ p = 0x0F ∨ (0x1C ≤ p ∧ p ≤ 0x1F) ∨ (0x2C ≤ p ∧ p ≤ 0x2F) ∨ p = 0x3E ∨ p = 0x3F
    ∨ 0x48 ≤ p) : controlByte c p = 0 := by
  simp only [controlByte, areaByte]
  rw [if_neg (by omega), if_neg (by omega), if_neg (by omega), if_neg (by omega), if_neg (by omega)]
  rfl

end

section
variable {h : Host} {s : State} {start : Byte} {copy : ControlCopy} {sent : Nat}
  (ht : (s.hosts.get h).transaction = .controlRead start copy sent)
include ht

theorem controlReadByte_eq : controlReadByte h s = s.modHost h fun hs =>
    { hs with answer := .byte (controlByte copy (start.toNat + sent)), pointer := hs.pointer + 1,
              transaction := .controlRead start copy (sent + 1) } := by
  simp only [controlReadByte, State.transaction, ht]

theorem controlReadEnd_none (he : copy.event = none) :
    controlReadEnd h s = s.modHost h fun hs => { hs with transaction := .idle } := by
  simp only [controlReadEnd, State.transaction, ht, he]

theorem controlReadEnd_kept (hcovers : coversEventArea start sent = false) :
    controlReadEnd h s = s.modHost h fun hs => { hs with transaction := .idle } := by
  simp only [controlReadEnd, State.transaction, ht, hcovers, Bool.false_eq_true, if_false]
  cases copy.event <;> rfl

theorem controlReadEnd_removed {r : EventRecord} (he : copy.event = some r) (hcovers : coversEventArea start sent = true) :
    controlReadEnd h s = s.modHost h fun hs => HostState.removeRead (low16 s.timeBase) r { hs with transaction := .idle } := by
  simp only [controlReadEnd, State.transaction, ht, he, hcovers, if_true]

end

theorem coversEventArea_iff (start : Byte) (sent : Nat) :
    coversEventArea start sent = true ↔ start.toNat ≤ 0x10 ∧ 0x1C ≤ start.toNat + sent := by
  simp only [coversEventArea, decide_eq_true_eq]
  omega

theorem HostState.removeRead_oldest (stamp : Word16) {r : EventRecord} {hs : HostState}
    (hr : r.kind ≠ .overflow ∨ hs.countedApart = 0) : hs.removeRead stamp r = { hs with events := hs.events.tail } := by
  refine if_neg fun hc => ?_
  simp only [EventRecord.isOverflow, Bool.and_eq_true, decide_eq_true_eq] at hc
  exact hr.elim (fun hk => hk hc.1) (fun hz => hc.2 hz)

theorem HostState.removeRead_restarted (stamp : Word16) {r : EventRecord} {hs : HostState} (hk : r.kind = .overflow)
    (hapart : hs.countedApart ≠ 0) : hs.removeRead stamp r =
      { hs with events := [overflowRecord hs.countedApart (hs.eventCounter + 1) stamp], eventCounter := hs.eventCounter + 1 } :=
  if_pos (by simp only [EventRecord.isOverflow, hk, hapart, decide_true, ne_eq, not_false_eq_true, Bool.and_self])

theorem eventArea_some (r : EventRecord) (detail : Word16 × Byte) (hd : r.detail.getD (0, 0) = detail) :
    eventArea (some r) = [r.kind.code, r.number, r.subject, r.reason] ++ bytes16 r.value ++ bytes16 r.stamp
      ++ (bytes16 detail.1 ++ [detail.2]) := by
  simp only [eventArea, hd, List.append_assoc]

/-- Settles O59: area by area, and the end by what was copied and sent. -/
theorem controlReadServedAndEventRemoved : Obligations.ControlReadServedAndEventRemoved := by
  refine ⟨rfl, rfl, rfl, by decide, fun h s start copy sent ht => ?_⟩
  intro p two field sends whole ended
  have htwo (w : Word16) : bytes16 w = two w := bytes16_eq w
  have hsends {x : Byte} (hx : controlByte copy p = x) : sends x :=
    hx ▸ congrArg Host.Outcome.next (controlReadByte_eq ht)
  have harea {area area' : List Byte} {at' : Nat} (hx : controlByte copy p = area[p - at']?.getD 0) (harea : area = area') :
      sends (field area' at') := hsends (harea ▸ hx)
  have hwhole : coversEventArea start sent = true ↔ whole := coversEventArea_iff start sent
  refine ⟨fun hp => harea (controlByte_result copy hp) rfl, fun hlow hhigh he => hsends ?_, fun r hlow hhigh he => ?_,
    fun hlow hhigh => harea (controlByte_report copy hlow hhigh) ?_, fun hlow hhigh hf => hsends ?_, fun f hlow hhigh hf => ?_,
    fun hlow hhigh => harea (controlByte_partId copy hlow hhigh) rfl, fun hp => hsends (controlByte_gap copy hp),
    fun hkept => ?_, fun r he hw hr => ?_, fun r he hw hk hapart => ?_⟩
  · rw [controlByte_event copy hlow hhigh, he]
    rfl
  · refine harea (controlByte_event copy hlow hhigh) ?_
    rw [he]
    cases hd : r.detail with
    | none => rw [eventArea_some r (0, 0) (by rw [hd]; rfl)]; simp only [htwo]; rfl
    | some d => rw [eventArea_some r d (by rw [hd]; rfl)]; simp only [htwo]
  · simp only [reportArea, htwo]
    cases copy.report.worst <;> rfl
  · rw [controlByte_fetch copy hlow hhigh, hf]
    rfl
  · refine harea (controlByte_fetch copy hlow hhigh) ?_
    rw [hf]
    simp only [fetchArea, htwo]
  · rcases hkept with he | hno
    · exact congrArg Host.Outcome.next (controlReadEnd_none ht he)
    · exact congrArg Host.Outcome.next (controlReadEnd_kept ht (by rw [← Bool.not_eq_true, hwhole]; exact hno))
  · refine congrArg Host.Outcome.next ((controlReadEnd_removed ht he (hwhole.2 hw)).trans ?_)
    exact State.modHost_congr h (HostState.removeRead_oldest (low16 s.timeBase) hr)
  · refine congrArg Host.Outcome.next ((controlReadEnd_removed ht he (hwhole.2 hw)).trans ?_)
    exact State.modHost_congr h (HostState.removeRead_restarted (low16 s.timeBase) hk hapart)

/-! ## Address bytes (R132, R134) -/

theorem HostState.aliasAt_eq_some_iff (hs : HostState) (a : BitVec 7) (k : AliasIx) :
    hs.aliasAt a = some k ↔ (∃ w ∈ hs.aliases.get k, w.address = a) ∧ ∀ j, j < k → ∀ w ∈ hs.aliases.get j, w.address ≠ a := by
  simp [HostState.aliasAt, ← Fin.find?_eq_find?_finRange, Option.any_eq_true, Option.any_eq_false]

theorem HostState.aliasAt_eq_none_iff (hs : HostState) (a : BitVec 7) :
    hs.aliasAt a = none ↔ ∀ k, ∀ w ∈ hs.aliases.get k, w.address ≠ a := by
  simp [HostState.aliasAt, ← Fin.find?_eq_find?_finRange, Option.any_eq_false]

theorem State.decodeAddress_control (s : State) (h : Host) : s.decodeAddress h s.controlAddress = .control := if_pos rfl

theorem State.decodeAddress_nothing {s : State} {h : Host} {a : BitVec 7} (hc : a ≠ s.controlAddress)
    (hno : ∀ k, ∀ w ∈ (s.hosts.get h).aliases.get k, w.address ≠ a) : s.decodeAddress h a = .nothing := by
  simp only [State.decodeAddress, if_neg hc, (HostState.aliasAt_eq_none_iff _ a).2 hno]

theorem State.decodeAddress_window {s : State} {h : Host} {a : BitVec 7} {k : AliasIx} {w : AliasSlot} (hc : a ≠ s.controlAddress)
    (hk : (s.hosts.get h).aliases.get k = some w) (ha : w.address = a)
    (hbefore : ∀ j, j < k → ∀ x ∈ (s.hosts.get h).aliases.get j, x.address ≠ a) : s.decodeAddress h a = .window k w := by
  simp only [State.decodeAddress, if_neg hc, (HostState.aliasAt_eq_some_iff _ a k).2 ⟨⟨w, hk, ha⟩, hbefore⟩, hk]

section
variable {h : Host} {a : BitVec 7} {d : Direction} {s : State}

theorem addressByte_nothing (hd : (endTransaction h s).decodeAddress h a = .nothing) :
    addressByte h a d s = refuseAddress h (endTransaction h s) := by
  simp only [addressByte, hd]

theorem addressByte_window_read {k : AliasIx} {w : AliasSlot} (hd : (endTransaction h s).decodeAddress h a = .window k w) :
    addressByte h a .read s = aliasReadAddress h k w (endTransaction h s) := by
  simp only [addressByte, hd]

theorem addressByte_window_write {k : AliasIx} {w : AliasSlot} (hd : (endTransaction h s).decodeAddress h a = .window k w) :
    addressByte h a .write s = aliasWriteAddress h k w (endTransaction h s) := by
  simp only [addressByte, hd]

/-- The control address is read from the straps alone (R133). -/
theorem ignoresRecords_controlAddress : IgnoresRecords State.controlAddress where
  hosts _ _ _ := rfl
  slots _ _ _ := rfl
  polls _ _ _ := rfl
  writes _ _ _ := rfl
  claims _ _ _ := rfl
  nodes _ _ _ := rfl
  links _ _ _ := rfl
  arbiters _ _ _ := rfl
  choices _ _ := rfl
  due _ _ := rfl
  periods _ _ := rfl

theorem endTransaction_controlAddress : (endTransaction h s).controlAddress = s.controlAddress :=
  endTransaction_read ignoresRecords_controlAddress h s

theorem addressByte_control_write : addressByte h s.controlAddress .write s =
    (endTransaction h s).modHost h (HostState.answerWith .ack (.controlWrite none [])) := by
  simp only [addressByte, ← endTransaction_controlAddress (h := h) (s := s), State.decodeAddress_control]

theorem addressByte_control_read : addressByte h s.controlAddress .read s = controlReadAddress h (endTransaction h s) := by
  simp only [addressByte, ← endTransaction_controlAddress (h := h) (s := s), State.decodeAddress_control]

end

/-! ## The end of the open transaction at an address byte (R132, R150) -/

section
variable {h : Host} {s : State}

theorem endTransaction_command {p : Byte} {bytes : List Byte} (ht : s.transaction h = .controlWrite (some p) bytes) (c : Command)
    (hc : p = c.address) : endTransaction h s = runCommand c h bytes (s.modHost h fun hs => { hs with transaction := .idle }) := by
  simp only [endTransaction, controlWriteEnd, ht, hc, commandAt_address]

theorem takeCommand_open {c : Command} {bytes : List Byte} (ht : s.transaction h = .controlWrite (some c.address) bytes) :
    takeCommand c h bytes s = runCommand c h bytes (s.modHost h fun hs => { hs with transaction := .idle }) := by
  simp only [takeCommand, closeFor, ht, if_true]

/-- A control window write closes and no more where it brought no data byte or no command address. -/
theorem endTransaction_closes {p : Option Byte} {bytes : List Byte} (ht : s.transaction h = .controlWrite p bytes)
    (hno : bytes = [] ∨ ∀ c : Command, p ≠ some c.address) :
    endTransaction h s = s.modHost h fun hs => { hs with transaction := .idle } := by
  cases p with
  | none => simp only [endTransaction, controlWriteEnd, ht]
  | some b =>
    simp only [endTransaction, controlWriteEnd, ht]
    cases hc : commandAt b with
    | none => rfl
    | some c =>
      obtain ⟨d, hd⟩ := (commandAt_isSome_iff b).1 (by rw [hc]; rfl)
      have hempty : bytes = [] := hno.resolve_right fun hne => hne d (congrArg some hd.symm)
      simp only [runCommand, hempty, List.isEmpty_nil, if_true]

end

/-! ## The address byte of a window (R48, R142 to R146) -/

theorem State.snapshotOf_eq (s : State) (w : AliasSlot) :
    s.snapshotOf w = (List.finRange 48).filterMap fun i => (s.entry i).bind fun e =>
      if e.node = w.node ∧ w.base.toNat < e.first.toNat + e.length ∧ e.first.toNat < w.base.toNat + w.size then
        some { first := e.first, data := e.data, state := e.state, age := e.age } else none := by
  simp only [State.snapshotOf, rangesShare, Bool.and_eq_true, decide_eq_true_eq]
  rfl

theorem aliasReadAddress_served {h : Host} {k : AliasIx} {w : AliasSlot} {s : State}
    (hs : w.strict = false ∨ ∃ e ∈ entryAtPosition w (s.snapshotOf w) (s.hosts.get h).pointer.toNat, e.state = .valid) :
    aliasReadAddress h k w s = s.modHost h
      (HostState.answerWith .ack (.aliasRead k w (s.hosts.get h).pointer (s.snapshotOf w) 0 0)) := by
  refine if_pos ?_
  simpa [Option.any_eq_true] using hs

theorem aliasReadAddress_refused {h : Host} {k : AliasIx} {w : AliasSlot} {s : State} (hstrict : w.strict = true)
    (hno : ¬ ∃ e ∈ entryAtPosition w (s.snapshotOf w) (s.hosts.get h).pointer.toNat, e.state = .valid) :
    aliasReadAddress h k w s = (refuseAddress h s).modHost h fun hs =>
      { hs with report := (refusedReport k w (s.hosts.get h).pointer
          (entryAtPosition w (s.snapshotOf w) (s.hosts.get h).pointer.toNat)) } := by
  refine if_neg ?_
  simpa [hstrict, Option.any_eq_true] using hno

/-- R48: the six refusals and their complement. -/
theorem State.acceptsWrite_eq_false_iff (s : State) (h : Host) (w : AliasSlot) :
    s.acceptsWrite h w = false ↔
      w.access = .readOnly ∨ s.linkState (nodeLink w.node) ≠ .up ∨ s.presence w.node ≠ .present
        ∨ (∃ c ∈ (s.claims.get w.node).holder, c.host ≠ h)
        ∨ 6 ≤ ((s.writeQueues.get (nodeLink w.node)).reserved ++ (s.writeQueues.get (nodeLink w.node)).order).countP
            (fun r => r.origin = h)
        ∨ 16 ≤ ((s.writeQueues.get (nodeLink w.node)).reserved ++ (s.writeQueues.get (nodeLink w.node)).order).length := by
  have haccess : w.access ≠ .readWrite ↔ w.access = .readOnly := by cases w.access <;> decide
  simp only [State.acceptsWrite, Bool.and_eq_false_iff, decide_eq_false_iff_not, Bool.not_eq_false', haccess, not_lt, or_assoc,
    State.claimedByOther, Option.any_eq_true, decide_eq_true_eq, Option.mem_def, ne_eq]
  simp only [WriteQueue.countOf, WriteQueue.count, List.countP_eq_length_filter, List.filter_append, List.length_append]

theorem exec_aliasWriteAddressByte {h : Host} {k : AliasIx} {w : AliasSlot} {s t : State}
    (hd : (endTransaction h s).decodeAddress h w.address = .window k w) (ht : aliasWriteAddress h k w (endTransaction h s) = t) :
    exec (.aliasWriteAddressByte h w.address) s = .next t :=
  congrArg Host.Outcome.next ((addressByte_window_write hd).trans ht)

/-- Settles O56: the six refusals, and the reservation. -/
theorem aliasWriteAcceptedOrRefused : Obligations.AliasWriteAcceptedOrRefused := by
  intro h k w s s0 l q refused hc hk hbefore
  have hd : s0.decodeAddress h w.address = .window k w := State.decodeAddress_window hc hk rfl hbefore
  have hrefused : s0.acceptsWrite h w = false ↔ refused := s0.acceptsWrite_eq_false_iff h w
  refine ⟨fun hr => exec_aliasWriteAddressByte hd ?_, fun hr => exec_aliasWriteAddressByte hd ?_⟩
  · exact if_neg (by rw [hrefused.2 hr]; decide)
  · exact if_pos (by rw [← Bool.not_eq_false, hrefused]; exact hr)

/-- Settles O55: by the open transaction, then by what the address names. -/
theorem addressBytesDecoded : Obligations.AddressBytesDecoded := by
  intro h a d s s0 hs answer copy closed
  refine ⟨?_, congrArg Host.Outcome.next addressByte_control_write, congrArg Host.Outcome.next addressByte_control_read,
    fun ⟨hc, hno⟩ => ?_, fun k w hc hk ha hbefore => ?_⟩
  · cases ht : s.transaction h with
    | idle => simp only [s0, endTransaction, ht]
    | ignored => simp only [s0, closed, endTransaction, ht]
    | controlWrite p bytes =>
      refine ⟨fun c hp hbytes => ?_, fun hno => endTransaction_closes ht hno⟩
      subst hp
      rw [exec_row, takeCommand_open ht, ← endTransaction_command ht c rfl]
    | controlRead start copied sent =>
      exact congrArg Host.Outcome.next (by simp only [s0, endTransaction, ht])
    | aliasWrite k w phase => exact congrArg Host.Outcome.next (by simp only [s0, endTransaction, ht])
    | aliasRead k w start snap sent fill => exact congrArg Host.Outcome.next (by simp only [s0, endTransaction, ht])
  · have hd : s0.decodeAddress h a = .nothing := State.decodeAddress_nothing hc hno
    exact ⟨congrArg Host.Outcome.next (addressByte_nothing hd), congrArg Host.Outcome.next (addressByte_nothing hd),
      congrArg Host.Outcome.next (addressByte_nothing hd)⟩
  · intro snapshot register at' fresh
    have hd : s0.decodeAddress h a = .window k w := State.decodeAddress_window hc hk ha hbefore
    have hsnapshot : s0.snapshotOf w = snapshot := s0.snapshotOf_eq w
    have hat : entryAtPosition w (s0.snapshotOf w) hs.pointer.toNat = at' := by rw [hsnapshot]; rfl
    refine ⟨fun hok => congrArg Host.Outcome.next ((addressByte_window_read hd).trans ?_), fun hstrict hno =>
      congrArg Host.Outcome.next ((addressByte_window_read hd).trans ?_)⟩
    · exact (aliasReadAddress_served (hat ▸ hok)).trans (by rw [hsnapshot]; rfl)
    · refine (aliasReadAddress_refused hstrict (hat ▸ hno)).trans ?_
      rw [hat, refusedReport, reportAddress_eq]
      rfl

end Sys2Proof.Machine

/-!
# Rules about entries

What a rule does with the entry of one slot (the entry after it, what it tells each host, whether it asks for a poll) and what a
loop that takes the rule for every slot does then.
-/

namespace Sys2Proof.Machine
set_option Elab.async false

/-- The poll item of a slot as it stands. -/
def State.item (s : State) (i : SlotIx) : PollItem := { slot := i, generation := (s.slots.get i).generation }

theorem SlotEffect.same {s : State} {i : SlotIx} {e : Entry} (he : s.entry i = some e) :
    SlotEffect s s i { s.slots.get i with entry := some e } (fun _ hs => hs) (fun _ q => q) := by
  have hslot : (s.slots.get i).entry = some e := he
  exact (SlotEffect.refl s i).congr (by rw [← hslot]) (fun _ _ => rfl) fun _ _ => rfl

theorem State.modEntry_congr_of_entry {s : State} {i : SlotIx} {e : Entry} {f g : Entry → Entry} (he : s.entry i = some e)
    (hfg : f e = g e) : s.modEntry i f = s.modEntry i g := by
  have hslot : (s.slots.get i).entry = some e := he
  simp only [State.modEntry, State.modSlot]
  rw [upd_congr]
  rw [hslot, Option.map_some, Option.map_some, hfg]

/-- What a rule makes of an entry in use, what it tells each host, and whether it asks for a poll. -/
structure EntryRule where
  next : Entry → Entry
  told : SlotIx → Entry → Host → HostState → HostState
  asks : Entry → Bool

namespace EntryRule

/-- `f` does in slot `i` what the rule says, in every state that differs from `s` only in slots, poll queues and hosts. -/
def Describes (R : EntryRule) (s : State) (f : SlotIx → State → State) : Prop :=
  ∀ i u e, s.SameAside u → u.entry i = some e →
    SlotEffect u (f i u) i { u.slots.get i with entry := some (R.next e) } (R.told i e)
      (fun l q => if R.asks e = true ∧ nodeLink e.node = l then q ++ [u.item i] else q)

/-- The rule, taken for some entries only. -/
def when (p : Entry → Bool) (R : EntryRule) : EntryRule where
  next e := if p e then R.next e else e
  told i e h hs := if p e then R.told i e h hs else hs
  asks e := p e && R.asks e

/-- The rule has been taken for every slot in use, in ascending index. -/
structure Applied (R : EntryRule) (s t : State) : Prop where
  slots : ∀ i, t.slots.get i = { s.slots.get i with entry := (s.entry i).map R.next }
  hosts : ∀ h, t.hosts.get h
    = (List.finRange 48).foldl (fun hs i => (s.entry i).elim hs fun e => R.told i e h hs) (s.hosts.get h)
  polls : ∀ l, t.pollQueues.get l = s.pollQueues.get l ++ ((List.finRange 48).filter fun i =>
    (s.entry i).any fun e => R.asks e && decide (nodeLink e.node = l)).map s.item
  aside : s.SameAside t

theorem Describes.when {R : EntryRule} {s : State} {f : SlotIx → State → State} (hR : R.Describes s f) (p : Entry → Bool) :
    (R.when p).Describes s fun i u => match u.entry i with
      | none => u
      | some e => if p e then f i u else u := by
  intro i u e hu he
  simp only [he, EntryRule.when]
  by_cases hp : p e = true
  · simp only [hp, if_true, Bool.true_and]
    exact hR i u e hu he
  · simp only [Bool.not_eq_true] at hp
    simp only [hp, Bool.false_eq_true, if_false, Bool.false_and, false_and]
    exact .same he

theorem Describes.applied {R : EntryRule} {s : State} {f : SlotIx → State → State} (hR : R.Describes s f)
    (hnone : ∀ i u, u.entry i = none → f i u = u) : R.Applied s (forSlots f s) := by
  have heff : SlotsEffect s (forSlots f s) (fun i => { s.slots.get i with entry := (s.entry i).map R.next })
      (fun i h hs => (s.entry i).elim hs fun e => R.told i e h hs)
      (fun i l q => if (s.entry i).any (fun e => R.asks e && decide (nodeLink e.node = l)) = true then q ++ [s.item i] else q) := by
    refine forSlots_effect fun i u hu hslot => ?_
    have hentry : u.entry i = s.entry i := by rw [State.entry, hslot, State.entry]
    cases he : s.entry i with
    | none =>
      rw [hnone i u (hentry.trans he)]
      have hslots : (s.slots.get i).entry = none := he
      exact (SlotEffect.refl u i).congr (by rw [hslot, Option.map_none, ← hslots]) (fun _ _ => rfl) fun _ _ => rfl
    | some e =>
      refine (hR i u e hu (hentry.trans he)).congr (by rw [hslot]; rfl) (fun _ _ => rfl) fun l q => ?_
      simp only [Option.any_some, Bool.and_eq_true, decide_eq_true_eq, State.item, hslot]
  refine ⟨heff.slots, heff.hosts, fun l => (heff.polls l).trans ?_, heff.aside⟩
  rw [foldl_append_ite]
  simp only [Bool.decide_eq_true]

theorem Describes.forEntries {R : EntryRule} {s : State} {f : SlotIx → State → State} (hR : R.Describes s f) (p : Entry → Bool) :
    (R.when p).Applied s (forEntries p f s) :=
  (hR.when p).applied fun i u he => by simp only [he]

section
variable {R : EntryRule} {s t : State} (ha : R.Applied s t)
include ha

theorem Applied.entry (i : SlotIx) : t.entry i = (s.entry i).map R.next := by rw [State.entry, ha.slots]

theorem Applied.pollQueues (hno : ∀ e, R.asks e = false) : t.pollQueues = s.pollQueues := by
  refine Vector.ext fun l hl => ?_
  have hl := ha.polls ⟨l, hl⟩
  simp only [hno, Bool.false_and, Option.any_false, List.filter_false, List.map_nil, List.append_nil] at hl
  exact hl

theorem Applied.hosts_same (hno : ∀ i e h hs, R.told i e h hs = hs) : t.hosts = s.hosts := by
  refine Vector.ext fun h hh => ?_
  have hh := ha.hosts ⟨h, hh⟩
  have hid (hs : HostState) (i : SlotIx) : ((s.entry i).elim hs fun e => R.told i e ⟨h, ‹_›⟩ hs) = hs := by
    cases s.entry i <;> simp [hno]
  simp only [hid, foldl_id] at hh
  exact hh

/-- Slots and hosts alone. -/
theorem Applied.eq_of_asks (hno : ∀ e, R.asks e = false) : t = { s with slots := t.slots, hosts := t.hosts } := by
  have haside := ha.aside
  rwa [State.SameAside, ha.pollQueues hno] at haside

/-- Slots and poll queues alone. -/
theorem Applied.eq_of_told (hno : ∀ i e h hs, R.told i e h hs = hs) : t = { s with slots := t.slots, pollQueues := t.pollQueues } := by
  have haside := ha.aside
  rwa [State.SameAside, ha.hosts_same hno] at haside

theorem Applied.slot_of_next {i : SlotIx} (hno : ∀ e ∈ s.entry i, R.next e = e) : t.slots.get i = s.slots.get i := by
  rw [ha.slots]
  have hmap : (s.entry i).map R.next = s.entry i := by
    cases he : s.entry i with
    | none => rfl
    | some e => rw [Option.map_some, hno e he]
  rw [hmap]
  rfl

end

end EntryRule

/-! ## The rules (R22 to R26, R33, R34, R41) -/

/-- R41: an entry past its stale limit becomes STALE, and its holders are told. -/
def limitRule (s : State) : EntryRule := EntryRule.when s.pastLimit
  { next := fun e => { e with state := .stale }
    told := fun i e => e.tells (low16 s.timeBase) i .entryStale .none
    asks := fun _ => false }

theorem SlotEffect.meetLimit {s : State} {i : SlotIx} {e : Entry} (he : s.entry i = some e) (hpast : s.pastLimit e = true) :
    SlotEffect s (meetLimit i s) i { s.slots.get i with entry := some { e with state := .stale } }
      (e.tells (low16 s.timeBase) i .entryStale .none) (fun _ q => q) := by
  have hstale := modEntry he fun e => { e with state := .stale }
  simp only [Machine.meetLimit, he, hpast, if_true]
  exact (hstale.trans (entryEvent hstale.entry .entryStale .none)).congr hstale.slot.symm (fun _ _ => rfl) fun _ _ => rfl

theorem meetLimit_of_not_past {s : State} {i : SlotIx} (hno : ∀ e, s.entry i = some e → s.pastLimit e = false) : meetLimit i s = s := by
  unfold meetLimit
  split
  · rfl
  · next e he => simp only [hno e he, Bool.false_eq_true, if_false]

theorem meetLimit_describes (s : State) : (limitRule s).Describes s meetLimit := by
  intro i u e hu he
  have hpast : u.pastLimit e = s.pastLimit e := hu.pastLimit e
  simp only [limitRule, EntryRule.when]
  cases hp : s.pastLimit e with
  | true =>
    have heff := SlotEffect.meetLimit he (hpast.trans hp)
    rw [hu.timeBase] at heff
    exact heff
  | false =>
    rw [meetLimit_of_not_past fun x hx => by
      obtain rfl : e = x := by simpa [he] using hx
      exact hpast.trans hp]
    exact (SlotEffect.same he).congr rfl (fun _ _ => rfl) fun _ _ => rfl

theorem checkLimits_applied (s : State) : (limitRule s).Applied s (checkLimits s) :=
  (meetLimit_describes s).applied fun i u he => meetLimit_of_not_past fun e he' => by rw [he] at he'; cases he'

/-- R33, R34: a due entry that may be polled is queued, or counts a skipped tick. -/
def tickRule (s : State) : EntryRule := EntryRule.when (fun e => s.ticksNow e && e.pollable)
  { next := fun e => if e.phase = .idle then { e with phase := .queued } else { e with skipped := satInc e.skipped }
    told := fun _ _ _ hs => hs
    asks := fun e => decide (e.phase = .idle) }

/-- A poll asked for an entry that was changed before. -/
theorem SlotEffect.thenQueuePoll {s u : State} {i : SlotIx} {e' : Entry} {H : Host → HostState → HostState}
    (heff : SlotEffect s u i { s.slots.get i with entry := some e' } H (fun _ q => q)) :
    SlotEffect s (Machine.queuePoll i u) i { s.slots.get i with entry := some e'.asked } H
      (fun l q => if (decide (e'.phase = .idle) && e'.pollable) = true ∧ nodeLink e'.node = l then q ++ [s.item i] else q) := by
  refine (heff.trans (SlotEffect.queuePoll heff.entry)).congr ?_ (fun _ _ => rfl) fun l q => ?_
  · rw [heff.slot]
  · rw [heff.slot, State.item]
    simp only [Bool.and_eq_true, decide_eq_true_eq, and_assoc]

theorem tickEntry_describes (s : State) : (tickRule s).Describes s fun i u => match u.entry i with
    | none => u
    | some e => if u.ticksNow e then tickEntry i u else u := by
  intro i u e hu he
  have hslot : (u.slots.get i).entry = some e := he
  simp only [he, hu.ticksNow, tickEntry, tickRule, EntryRule.when]
  cases s.ticksNow e with
  | false => exact (SlotEffect.same he).congr rfl (fun _ _ => rfl) fun _ _ => rfl
  | true =>
    cases hp : e.pollable with
    | false => exact (SlotEffect.same he).congr rfl (fun _ _ => rfl) fun _ _ => rfl
    | true =>
      have hskip := SlotEffect.modEntry he fun e => { e with skipped := satInc e.skipped }
      cases hphase : e.phase with
      | idle =>
        refine (SlotEffect.queuePoll he).congr ?_ (fun _ _ => rfl) fun l q => ?_
        · simp [Entry.asked, hphase, hp]
        · simp [hphase, hp, State.item]
      | queued => exact hskip.congr (by simp [hphase]) (fun _ _ => rfl) fun l q => by simp
      | inFlight => exact hskip.congr (by simp [hphase]) (fun _ _ => rfl) fun l q => by simp

theorem tickClasses_applied (s : State) : (tickRule s).Applied s (tickClasses s) :=
  (tickEntry_describes s).applied fun i u he => by simp only [he]

/-- R22: a write that completed OK acts on an entry it touches. -/
def Entry.written (address : Nat) (bytes : List Byte) (e : Entry) : Entry :=
  let covering := decide (address ≤ e.first.toNat ∧ e.first.toNat + e.length ≤ address + bytes.length)
  { e with data := overlay bytes address e.first.toNat e.data, epoch := e.epoch + 1, age := if covering then 0 else e.age,
           state := if covering && e.pollable then .valid else e.state }

/-- A covering write revives the entry (R22). -/
def Entry.revivedBy (address : Nat) (bytes : List Byte) (e : Entry) : Bool :=
  decide (address ≤ e.first.toNat ∧ e.first.toNat + e.length ≤ address + bytes.length) && e.pollable && decide (e.state = .failed)

def writeRule (s : State) (address : Nat) (bytes : List Byte) : EntryRule where
  next e := (e.written address bytes).judged
  told i e h hs := (e.written address bytes).tellsWatch (low16 s.timeBase) i h
    (if e.revivedBy address bytes then e.tells (low16 s.timeBase) i .entryRecovered .none h hs else hs)
  asks _ := false

theorem writeIntoEntry_describes (s : State) (address : Nat) (bytes : List Byte) :
    (writeRule s address bytes).Describes s (writeIntoEntry address bytes) := by
  intro i u e hu he
  have hwritten := SlotEffect.modEntry he (Entry.written address bytes)
  have htold : SlotEffect u (if e.revivedBy address bytes then
        entryEvent i .entryRecovered .none (u.modEntry i (Entry.written address bytes)) else u.modEntry i (Entry.written address bytes))
      i { u.slots.get i with entry := some (e.written address bytes) }
      (fun h hs => if e.revivedBy address bytes then e.tells (low16 s.timeBase) i .entryRecovered .none h hs else hs)
      (fun _ q => q) := by
    cases e.revivedBy address bytes with
    | false => exact hwritten
    | true =>
      refine (hwritten.trans (.entryEvent hwritten.entry .entryRecovered .none)).congr hwritten.slot.symm (fun h hs => ?_) fun _ _ => rfl
      rw [hwritten.aside.timeBase, hu.timeBase]
      rfl
  have hwatched {v : State} (hv : v = u.modEntry i (Entry.written address bytes)) :
      SlotEffect u (evaluateWatches i (if e.revivedBy address bytes then entryEvent i .entryRecovered .none v else v)) i
        { u.slots.get i with entry := some (e.written address bytes).judged } ((writeRule s address bytes).told i e)
        (fun _ q => q) := by
    subst hv
    refine (htold.trans (.evaluateWatches htold.entry)).congr ?_ (fun h hs => ?_) fun _ _ => rfl
    · rw [htold.slot]
    · rw [htold.aside.timeBase, hu.timeBase]
      rfl
  simp only [writeIntoEntry, he]
  exact hwatched (State.modEntry_congr_of_entry he rfl)

/-- R23: a failed write acts on an entry it touches. -/
def Entry.writeFailed (e : Entry) : Entry := { e with epoch := e.epoch + 1, state := if e.state = .valid then .stale else e.state }

def writeFailedRule : EntryRule where
  next e := e.writeFailed.asked
  told _ _ _ hs := hs
  asks e := decide (e.phase = .idle) && e.writeFailed.pollable

theorem failWriteOnEntry_describes (s : State) : writeFailedRule.Describes s failWriteOnEntry :=
  fun _ _ _ _ he => (SlotEffect.modEntry he Entry.writeFailed).thenQueuePoll

/-- R24: a notice marks an entry: VALID becomes STALE, and a poll is asked for, now or after the one in flight. -/
def Entry.marked (e : Entry) : Entry :=
  let e' := { e with state := if e.state = .valid then .stale else e.state }
  match e.phase with
  | .idle => e'.asked
  | .queued => e'
  | .inFlight => { e' with repoll := true }

def markRule : EntryRule := EntryRule.when (fun e => decide (e.state ≠ .suspended))
  { next := Entry.marked
    told := fun _ _ _ hs => hs
    asks := fun e => decide (e.phase = .idle) && { e with state := if e.state = .valid then .stale else e.state : Entry }.pollable }

theorem markEntry_describes (s : State) : markRule.Describes s markEntry := by
  intro i u e _ he
  have hslot : (u.slots.get i).entry = some e := he
  simp only [markEntry, he, markRule, EntryRule.when]
  by_cases hsusp : e.state = .suspended
  · simp only [hsusp, if_true, ne_eq, not_true_eq_false, decide_false, Bool.false_eq_true, if_false]
    exact (SlotEffect.same he).congr rfl (fun _ _ => rfl) fun _ _ => rfl
  · simp only [hsusp, if_false, ne_eq, not_false_eq_true, decide_true, if_true, Bool.true_and]
    have hstale := SlotEffect.modEntry he fun e => { e with state := if e.state = .valid then .stale else e.state }
    cases hphase : e.phase with
    | idle =>
      refine hstale.thenQueuePoll.congr ?_ (fun _ _ => rfl) fun l q => ?_
      · simp only [Entry.marked, hphase]
      · simp only [hphase]
    | queued => exact hstale.congr (by simp only [Entry.marked, hphase]) (fun _ _ => rfl) fun l q => by simp
    | inFlight =>
      refine (hstale.trans (.modEntry hstale.entry fun e => { e with repoll := true })).congr ?_ (fun _ _ => rfl) fun l q => by simp
      rw [hstale.slot]
      simp only [Entry.marked, hphase]

/-- R26: a SUSPENDED entry is resumed: too long for its node, STALE or UNFILLED. -/
def resumeRule (s : State) : EntryRule where
  next e := if s.maxLength e.node < e.length then { e with state := .failed, fault := .tooLong }
    else { e with state := if e.hasData then .stale else .unfilled : Entry }.asked
  told i e h hs := if s.maxLength e.node < e.length then e.tells (low16 s.timeBase) i .entryFailed .tooLong h hs else hs
  asks e := decide (e.length ≤ s.maxLength e.node) && decide (e.phase = .idle)

theorem resumeEntry_describes (s : State) : (resumeRule s).Describes s resumeEntry := by
  intro i u e hu he
  simp only [resumeEntry, he, hu.maxLength, resumeRule]
  by_cases hlong : s.maxLength e.node < e.length
  · have hfailed := SlotEffect.modEntry he fun e => { e with state := .failed, fault := .tooLong }
    simp only [hlong, if_true, Nat.not_le.2 hlong, decide_false, Bool.false_and, Bool.false_eq_true, false_and, if_false]
    refine (hfailed.trans (.entryEvent hfailed.entry .entryFailed .tooLong)).congr hfailed.slot.symm (fun h hs => ?_) fun _ _ => rfl
    rw [hfailed.aside.timeBase, hu.timeBase]
    rfl
  · have hresumed := SlotEffect.modEntry he fun e => { e with state := if e.hasData then .stale else .unfilled }
    have hpollable : ({ e with state := if e.hasData then .stale else .unfilled : Entry }).pollable = true := by
      cases hdata : e.hasData <;> simp [Entry.pollable, Entry.tooLong]
    simp only [hlong, if_false, Nat.not_lt.1 hlong, decide_true, Bool.true_and]
    exact hresumed.thenQueuePoll.congr rfl (fun _ _ => rfl) fun l q => by
      rw [hpollable, Bool.and_true]

end Sys2Proof.Machine

/-!
# The class ticks, the stale check, and the outcomes of writes at the entries

The effective class of an entry, and the loops over the entries that the millisecond event and a write's end take.
-/

namespace Sys2Proof.Machine
set_option Elab.async false

/-! ## The effective class (R6) -/

/-- Class `c` goes before class `d`: a shorter period, or the same period and no greater number. -/
def classBefore (periods : Vector Word16 4) (c d : Fin 4) : Prop :=
  (periods.get c).toNat < (periods.get d).toNat ∨ (periods.get c = periods.get d ∧ c ≤ d)

section
variable {periods : Vector Word16 4}

theorem classBefore_refl (c : Fin 4) : classBefore periods c c := .inr ⟨rfl, le_refl c⟩

theorem classBefore_trans {b c d : Fin 4} (h : classBefore periods b c) (h' : classBefore periods c d) : classBefore periods b d := by
  simp only [classBefore, ← BitVec.toNat_inj] at *
  omega

theorem classBefore_antisymm {c d : Fin 4} (h : classBefore periods c d) (h' : classBefore periods d c) : c = d := by
  simp only [classBefore, ← BitVec.toNat_inj] at *
  omega

theorem fasterClass_before (b c : Fin 4) :
    ∃ x, fasterClass periods (some b) c = some x ∧ (x = b ∨ x = c) ∧ classBefore periods x b ∧ classBefore periods x c := by
  by_cases hc : periods.get c < periods.get b ∨ (periods.get c = periods.get b ∧ c < b)
  · refine ⟨c, if_pos hc, .inr rfl, ?_, classBefore_refl c⟩
    simp only [classBefore, BitVec.lt_def, ← BitVec.toNat_inj] at *
    omega
  · refine ⟨b, if_neg hc, .inl rfl, classBefore_refl b, ?_⟩
    simp only [classBefore, BitVec.lt_def, ← BitVec.toNat_inj] at *
    omega

/-- The best of some classes is one of them and goes before each. -/
theorem foldl_fasterClass_some (b : Fin 4) (cs : List (Fin 4)) :
    ∃ x, cs.foldl (fasterClass periods) (some b) = some x ∧ x ∈ b :: cs ∧ ∀ d ∈ b :: cs, classBefore periods x d := by
  induction cs generalizing b with
  | nil => exact ⟨b, rfl, by simp, by simpa using classBefore_refl b⟩
  | cons c cs ih =>
    obtain ⟨y, hy, hor, hyb, hyc⟩ := fasterClass_before (periods := periods) b c
    obtain ⟨x, hx, hmem, hbefore⟩ := ih y
    refine ⟨x, by rw [List.foldl_cons, hy, hx], ?_, ?_⟩
    · rcases List.mem_cons.1 hmem with rfl | hmem
      · rcases hor with rfl | rfl <;> simp
      · simp [hmem]
    · intro d hd
      have hxy := hbefore y List.mem_cons_self
      rcases List.mem_cons.1 hd with rfl | hd
      · exact classBefore_trans hxy hyb
      · rcases List.mem_cons.1 hd with rfl | hd
        · exact classBefore_trans hxy hyc
        · exact hbefore d (List.mem_cons_of_mem _ hd)

theorem foldl_fasterClass_eq_none_iff (cs : List (Fin 4)) : cs.foldl (fasterClass periods) none = none ↔ cs = [] := by
  cases cs with
  | nil => simp
  | cons c cs =>
    obtain ⟨x, hx, -, -⟩ := foldl_fasterClass_some (periods := periods) c cs
    have hfold : (c :: cs).foldl (fasterClass periods) none = some x := hx
    simp [hfold]

theorem foldl_fasterClass_eq_some_iff (cs : List (Fin 4)) (c : Fin 4) :
    cs.foldl (fasterClass periods) none = some c ↔ c ∈ cs ∧ ∀ d ∈ cs, classBefore periods c d := by
  cases cs with
  | nil => simp
  | cons b cs =>
    obtain ⟨x, hx, hmem, hbefore⟩ := foldl_fasterClass_some (periods := periods) b cs
    have hfold : (b :: cs).foldl (fasterClass periods) none = some x := hx
    rw [hfold, Option.some_inj]
    refine ⟨fun hc => hc ▸ ⟨hmem, hbefore⟩, fun ⟨hc, hcs⟩ => classBefore_antisymm (hbefore c hc) (hcs x hmem)⟩

end

/-- The timed classes that take part in an entry's effective class. -/
def State.timedRequests (s : State) (e : Entry) : List (Fin 4) := e.requests.filterMap fun r => match r with
  | .timed c => some c
  | .notice => if s.sendsNotices e.node then none else some 3

theorem State.effective_eq (s : State) (e : Entry) :
    s.effective e = ((s.timedRequests e).foldl (fasterClass s.periods) none).elim .notice .timed := by
  have hfold : s.effective e = match (s.timedRequests e).foldl (fasterClass s.periods) none with
    | some c => .timed c
    | none => .notice := rfl
  rw [hfold]
  cases (s.timedRequests e).foldl (fasterClass s.periods) none <;> rfl

theorem State.effective_notice_iff (s : State) (e : Entry) : s.effective e = .notice ↔ s.timedRequests e = [] := by
  rw [s.effective_eq, ← foldl_fasterClass_eq_none_iff (periods := s.periods)]
  cases (s.timedRequests e).foldl (fasterClass s.periods) none <;> simp

theorem State.effective_timed_iff (s : State) (e : Entry) (c : Fin 4) :
    s.effective e = .timed c ↔ c ∈ s.timedRequests e ∧ ∀ d ∈ s.timedRequests e, classBefore s.periods c d := by
  rw [s.effective_eq, ← foldl_fasterClass_eq_some_iff]
  cases (s.timedRequests e).foldl (fasterClass s.periods) none <;> simp

theorem State.sendsNotices_iff (s : State) (n : Node) :
    s.sendsNotices n = true ↔ ∃ i, (s.nodes.get n).identity = some i ∧ i.sendsNotices = true := by
  simp [State.sendsNotices, Option.any_eq_true]

theorem State.mem_timedRequests (s : State) (e : Entry) (c : Fin 4) :
    c ∈ s.timedRequests e ↔ ∃ h r, e.holders.get h = some r ∧
      (r.cls = .timed c ∨ (r.cls = .notice ∧ s.sendsNotices e.node = false ∧ c = 3)) := by
  have hreq (x : RateClass) : x ∈ e.requests ↔ ∃ h r, e.holders.get h = some r ∧ r.cls = x := by
    simp [Entry.requests, Option.map_eq_some_iff]
  simp only [State.timedRequests, List.mem_filterMap, hreq]
  constructor
  · rintro ⟨x, ⟨h, r, hr, rfl⟩, hx⟩
    refine ⟨h, r, hr, ?_⟩
    cases hcls : r.cls with
    | timed d => simpa [hcls] using hx
    | notice =>
      simp only [hcls, Option.ite_none_left_eq_some, Option.some.injEq] at hx
      exact .inr ⟨rfl, by simpa using hx.1, hx.2.symm⟩
  · rintro ⟨h, r, hr, hcls⟩
    refine ⟨r.cls, ⟨h, r, hr, rfl⟩, ?_⟩
    rcases hcls with hcls | ⟨hcls, hno, rfl⟩
    · rw [hcls]
    · simp [hcls, hno]

/-! ## The stale check (R41, R42) -/

theorem Entry.tells_eq (e : Entry) (stamp : Word16) (i : SlotIx) (k : EventKind) (why : Reason) (h : Host) (hs : HostState) :
    e.tells stamp i k why h hs = if (e.holders.get h).isSome then hs.receive stamp (eventOf k (byteOf i.val) why.code 0) else hs := rfl

theorem takeStaleCheck_closed {s : State} (hclosed : s.due.stale = false) : takeStaleCheck s = s := by
  simp only [takeStaleCheck, hclosed, Bool.false_eq_true, if_false]

theorem takeStaleCheck_open {s : State} (hopen : s.due.stale = true) :
    takeStaleCheck s = checkLimits { s with due := { s.due with stale := false } } := by
  simp only [takeStaleCheck, hopen, if_true]

/-- Settles O40: the effective class by the fold over the requests, the check slot by slot. -/
theorem staleCheckJudgesEveryEntry : Obligations.StaleCheckJudgesEveryEntry := by
  refine ⟨fun s e => ?_, fun s => ?_, fun s i => ⟨meetLimit_of_not_past, fun e he hpast => ?_⟩, fun s => ?_⟩
  · intro sends asked
    have hasked (c : Fin 4) : c ∈ s.timedRequests e ↔ asked c := by
      have hsends : s.sendsNotices e.node = false ↔ ¬ sends := by
        rw [← Bool.not_eq_true, s.sendsNotices_iff]
      simp only [s.mem_timedRequests, hsends]
      rfl
    refine ⟨?_, fun c => ?_, s.pastLimit_iff e⟩
    · simp only [s.effective_notice_iff, List.eq_nil_iff_forall_not_mem, hasked]
    · simp only [s.effective_timed_iff, hasked]
      rfl
  · have ha := checkLimits_applied s
    refine ⟨_, rfl, ha.eq_of_asks fun e => ?_, ha.slots, fun h => (ha.hosts h).trans ?_⟩
    · simp [limitRule, EntryRule.when]
    · rw [← foldl_ite]
      refine congrArg (fun f => List.foldl f _ _) (funext fun hs => funext fun i => ?_)
      cases s.entry i with
      | none => rfl
      | some e =>
        simp only [Option.elim_some, limitRule, EntryRule.when, Option.any_some, Entry.tells_eq, Bool.and_eq_true]
        by_cases hpast : s.pastLimit e = true
        · simp only [hpast, if_true, true_and]
          rfl
        · simp only [hpast]
          rfl
  · have heff := SlotEffect.meetLimit he hpast
    refine ⟨_, rfl, ?_, heff.slot, heff.others, fun h => (heff.hosts h).trans ?_⟩
    · have haside := heff.aside
      rwa [State.SameAside, meetLimit_read (g := State.pollQueues) (fun _ _ _ => rfl) (fun _ _ _ => rfl)] at haside
    · rw [Entry.tells_eq]
      cases e.holders.get h <;> rfl
  · exact ⟨fun hclosed => congrArg Host.Outcome.next (takeStaleCheck_closed hclosed),
      fun hopen => congrArg Host.Outcome.next (takeStaleCheck_open hopen)⟩

/-! ## The class ticks (R32 to R34) -/

theorem Entry.pollable_iff (e : Entry) : e.pollable = true ↔ e.state ≠ .suspended ∧ ¬ (e.state = .failed ∧ e.fault = .tooLong) := by
  simp only [Entry.pollable, Entry.tooLong, Bool.and_eq_true, decide_eq_true_eq, Bool.not_eq_true', decide_eq_false_iff_not]

theorem takeTicks_closed {s : State} (hclosed : s.due.ticks = false) : takeTicks s = s := by
  simp only [takeTicks, hclosed, Bool.false_eq_true, if_false]

theorem takeTicks_open {s : State} (hopen : s.due.ticks = true) :
    takeTicks s = grants (tickClasses { s with due := { s.due with ticks := false } }) := by
  simp only [takeTicks, hopen, if_true]

/-- The ticks, taken in a state whose ticks are closed already. -/
theorem tickClasses_of_due (s : State) (d : EventParts) : (tickRule s).Applied { s with due := d } (tickClasses { s with due := d }) :=
  tickClasses_applied { s with due := d }

/-- Settles O39: the loop's rule, read slot by slot. -/
theorem classTickQueuesDueEntries : Obligations.ClassTickQueuesDueEntries := by
  refine ⟨Entry.pollable_iff, fun s => ?_⟩
  intro due joins
  have hdue {i : SlotIx} {e : Entry} (he : s.entry i = some e) : due i = (e.pollable && s.ticksNow e) := by
    simp only [due, he, Option.any_some]
    rfl
  have hbegun := tickClasses_of_due s { s.due with ticks := false }
  refine ⟨fun hclosed => congrArg Host.Outcome.next (takeTicks_closed hclosed), fun hopen =>
    ⟨_, congrArg Host.Outcome.next (takeTicks_open hopen), ?_, fun i => (hbegun.slots i).trans ?_, fun l => (hbegun.polls l).trans ?_⟩⟩
  · exact hbegun.eq_of_told fun i e h hs => by simp [tickRule, EntryRule.when]
  · refine congrArg (fun o => ({ s.slots.get i with entry := o } : Slot)) (?_ : (s.entry i).map _ = _)
    cases he : s.entry i with
    | none => rfl
    | some e =>
      simp only [Option.map_some, hdue he, tickRule, EntryRule.when, satInc_byte, Bool.and_comm]
  · refine congrArg (s.pollQueues.get l ++ List.map s.item ·) (List.filter_congr fun i _ => (?_ : (s.entry i).any _ = _))
    cases he : s.entry i with
    | none => simp only [joins, he, Option.any_none, Bool.and_false]
    | some e =>
      simp only [joins, he, Option.any_some, hdue he, tickRule, EntryRule.when, Bool.and_comm, Bool.and_left_comm]

/-! ## Outcomes of writes at the entries (R22, R23) -/

/-- R22: a register in both ranges holds the byte written, every other one its old byte. -/
theorem overlay_getElem? (new : List Byte) (addr at' : Nat) (old : List (Option Byte)) (k : Nat) (hk : k < old.length) :
    (overlay new addr at' old)[k]? =
      if addr ≤ at' + k ∧ at' + k < addr + new.length then some new[at' + k - addr]? else old[k]? := by
  induction old generalizing at' k with
  | nil => simp at hk
  | cons o old ih =>
    cases k with
    | zero =>
      simp only [overlay, List.getElem?_cons_zero, Nat.add_zero]
      by_cases hlow : at' < addr
      · rw [if_pos hlow, if_neg (by omega)]
      · by_cases hhigh : at' < addr + new.length
        · rw [if_neg hlow, if_pos ⟨by omega, hhigh⟩, List.getElem?_eq_getElem (by omega)]
        · rw [if_neg hlow, if_neg (by omega), List.getElem?_eq_none (by omega)]
    | succ k =>
      simp only [overlay, List.getElem?_cons_succ]
      rw [ih (at' + 1) k (by simpa using hk), show at' + 1 + k = at' + (k + 1) by omega]

theorem mirrorWriteOk_applied (n : Node) (a : Word16) (bytes : List Byte) (s : State) :
    ((writeRule s a.toNat bytes).when fun e => e.touchedBy n a.toNat bytes.length).Applied s (mirrorWriteOk n a bytes s) :=
  (writeIntoEntry_describes s a.toNat bytes).forEntries _

theorem mirrorWriteFailed_applied (n : Node) (a : Word16) (len : Nat) (s : State) :
    (writeFailedRule.when fun e => e.touchedBy n a.toNat len).Applied s (mirrorWriteFailed n a len s) :=
  (failWriteOnEntry_describes s).forEntries _

theorem Entry.touchedBy_iff (e : Entry) (n : Node) (a len : Nat) :
    e.touchedBy n a len = true ↔ e.node = n ∧ a < e.first.toNat + e.length ∧ e.first.toNat < a + len := by
  simp only [Entry.touchedBy, rangesShare, Bool.and_eq_true, decide_eq_true_eq]

theorem Entry.zoneFor_eq (e : Entry) (w : Watch) : e.zoneFor w =
    if e.hasData = false then w.zone
    else if numberOf (e.data.filterMap id) < w.low.toNat then .below
    else if w.high.toNat < numberOf (e.data.filterMap id) then .above else .inside := by
  simp only [Entry.zoneFor, Watch.zoneOf]
  cases e.hasData <;> rfl

section
variable (address : Nat) (bytes : List Byte) (e : Entry)

theorem Entry.written_state : (e.written address bytes).state =
    if (address ≤ e.first.toNat ∧ e.first.toNat + e.length ≤ address + bytes.length) ∧ e.pollable = true then .valid else e.state := by
  simp only [Entry.written, Bool.and_eq_true, decide_eq_true_eq]

/-- A covering write revives just the FAILED entry that it makes VALID. -/
theorem Entry.revivedBy_iff :
    e.revivedBy address bytes = true ↔ e.state = .failed ∧ (e.written address bytes).state = .valid := by
  simp only [Entry.written_state, Entry.revivedBy, Bool.and_eq_true, decide_eq_true_eq]
  constructor
  · rintro ⟨hcovers, hfailed⟩
    exact ⟨hfailed, if_pos hcovers⟩
  · rintro ⟨hfailed, hvalid⟩
    refine ⟨?_, hfailed⟩
    by_contra hno
    rw [if_neg hno, hfailed] at hvalid
    cases hvalid

theorem Entry.judged_holders (h : Host) : e.judged.holders.get h = (e.holders.get h).map e.judge := by
  simp [Entry.judged]

end

/-- Marking a VALID entry STALE does not change whether a poll may be queued for it. -/
theorem Entry.writeFailed_pollable (e : Entry) : e.writeFailed.pollable = e.pollable := by
  by_cases hv : e.state = .valid <;> simp [Entry.pollable, Entry.tooLong, Entry.writeFailed, hv]

theorem Entry.writeFailed_asked (e : Entry) : e.writeFailed.asked =
    { e with epoch := e.epoch + 1, state := if e.state = .valid then .stale else e.state,
             phase := if e.phase = .idle ∧ e.pollable = true then .queued else e.phase } := by
  simp only [Entry.asked, e.writeFailed_pollable]
  by_cases hask : e.phase = .idle ∧ e.pollable = true
  · rw [if_pos hask]
    exact if_pos hask
  · rw [if_neg hask]
    exact if_neg hask

/-- Settles O50: the two loops, read entry by entry. -/
theorem writeOutcomesReachTouchedEntries : Obligations.WriteOutcomesReachTouchedEntries := by
  intro n a bytes s share covers good failed zone tell told
  have hgood : ((writeRule s a.toNat bytes).when fun e => e.touchedBy n a.toNat bytes.length).Applied s good :=
    mirrorWriteOk_applied n a bytes s
  have hfailed : (writeFailedRule.when fun e => e.touchedBy n a.toNat bytes.length).Applied s failed :=
    mirrorWriteFailed_applied n a bytes.length s
  have hshare (e : Entry) : e.touchedBy n a.toNat bytes.length = true ↔ share e := e.touchedBy_iff ..
  have hnext {R : EntryRule} {e : Entry} (hyes : share e) : (R.when fun e => e.touchedBy n a.toNat bytes.length).next e = R.next e :=
    if_pos ((hshare e).2 hyes)
  have hzone (e : Entry) (w : Watch) : zone (e.written a.toNat bytes).judged w = (e.written a.toNat bytes).zoneFor w :=
    ((e.written a.toNat bytes).zoneFor_eq w).symm
  refine ⟨hgood.eq_of_asks fun e => by simp [EntryRule.when, writeRule], fun h => (hgood.hosts h).trans ?_,
    hfailed.eq_of_told fun i e h hs => by simp [EntryRule.when, writeFailedRule], fun i hno => ⟨?_, ?_⟩, fun i e he hyes => ⟨?_, ?_⟩,
    fun l => (hfailed.polls l).trans ?_⟩
  · refine congrArg (fun f => List.foldl f _ _) (funext fun hs => funext fun i => ?_)
    have hentry := hgood.entry i
    cases he : s.entry i with
    | none => simp only [told, he, Option.elim_none]
    | some e =>
      rw [he, Option.map_some] at hentry
      simp only [told, he, hentry, Option.elim_some]
      by_cases hyes : share e
      · rw [hnext hyes, if_pos hyes]
        simp only [EntryRule.when, if_pos ((hshare e).2 hyes), writeRule, Entry.tellsWatch, e.revivedBy_iff, Entry.tells_eq]
        have hheld : (e.written a.toNat bytes).holders = e.holders := rfl
        rw [hheld]
        cases e.holders.get h with
        | none => simp
        | some r =>
          simp only [Option.bind_some, Option.isSome_some, if_true]
          cases r.watch with
          | none => rfl
          | some w => simp only [hzone]; rfl
      · rw [if_neg hyes]
        exact if_neg (mt (hshare e).1 hyes)
  · exact hgood.slot_of_next fun e he => if_neg (mt (hshare e).1 (hno e he))
  · exact hfailed.slot_of_next fun e he => if_neg (mt (hshare e).1 (hno e he))
  · refine ⟨(e.written a.toNat bytes).judged, ?_, rfl, overlay_length .., fun k hk => overlay_getElem? _ _ _ _ k hk, ?_, ?_,
      rfl, rfl, rfl, rfl, rfl, rfl, fun h => ?_⟩
    · rw [hgood.slots, he, Option.map_some, hnext hyes]
      rfl
    · change (if decide (covers e) = true then 0 else e.age) = _
      simp only [decide_eq_true_eq]
    · refine (e.written_state a.toNat bytes).trans ?_
      simp only [e.pollable_iff]
      rfl
    · rw [Entry.judged_holders]
      simp only [hzone]
      rfl
  · rw [hfailed.slots, he, Option.map_some, Option.map_some, hnext hyes]
    exact congrArg (fun x => ({ s.slots.get i with entry := some x } : Slot)) e.writeFailed_asked
  · refine congrArg (s.pollQueues.get l ++ List.map s.item ·) (List.filter_congr fun i _ => ?_)
    cases he : s.entry i with
    | none => rfl
    | some e =>
      rw [Option.any_some, Option.any_some, Bool.eq_iff_iff]
      simp only [EntryRule.when, writeFailedRule, e.writeFailed_pollable, Bool.and_eq_true, decide_eq_true_eq, hshare, and_assoc]

end Sys2Proof.Machine

/-!
# Loops over the claim records, and the lease check

A rule about one claim record changes that record and the hosts it tells; a loop over the nodes is then read off record by record.
-/

namespace Sys2Proof.Machine
set_option Elab.async false

/-- Everything but the claim records and the hosts' records is the same. -/
def State.SameButClaims (s t : State) : Prop := t = { s with claims := t.claims, hosts := t.hosts }

theorem State.SameButClaims.trans {s u t : State} (h : s.SameButClaims u) (h' : u.SameButClaims t) : s.SameButClaims t := by
  rw [State.SameButClaims] at *
  rw [h']
  rw [h]

theorem State.SameButClaims.timeBase {s t : State} (h : s.SameButClaims t) : t.timeBase = s.timeBase := by
  rw [State.SameButClaims] at h
  rw [h]

/-- Claim record `n` becomes `c`, a host's record what `H` makes of it, and nothing else changes. -/
structure ClaimEffect (s t : State) (n : Node) (c : ClaimRecord) (H : Host → HostState → HostState) : Prop where
  claim : t.claims.get n = c
  others : ∀ m, m ≠ n → t.claims.get m = s.claims.get m
  hosts : ∀ h, t.hosts.get h = H h (s.hosts.get h)
  aside : s.SameButClaims t

namespace ClaimEffect

theorem refl (s : State) (n : Node) : ClaimEffect s s n (s.claims.get n) (fun _ hs => hs) := ⟨rfl, fun _ _ => rfl, fun _ => rfl, rfl⟩

theorem trans {s u t : State} {n : Node} {c c' : ClaimRecord} {H H' : Host → HostState → HostState} (h : ClaimEffect s u n c H)
    (h' : ClaimEffect u t n c' H') : ClaimEffect s t n c' (fun g hs => H' g (H g hs)) where
  claim := h'.claim
  others m hm := (h'.others m hm).trans (h.others m hm)
  hosts g := by rw [h'.hosts, h.hosts]
  aside := h.aside.trans h'.aside

theorem congr {s t : State} {n : Node} {c c' : ClaimRecord} {H H' : Host → HostState → HostState} (h : ClaimEffect s t n c H)
    (hc : c' = c) (hH : ∀ g hs, H' g hs = H g hs) : ClaimEffect s t n c' H' where
  claim := h.claim.trans hc.symm
  others := h.others
  hosts g := (h.hosts g).trans (hH g _).symm
  aside := h.aside

theorem modClaim (s : State) (n : Node) (f : ClaimRecord → ClaimRecord) :
    ClaimEffect s (s.modClaim n f) n (f (s.claims.get n)) (fun _ hs => hs) :=
  ⟨by simp, fun m hm => by simp [hm], fun _ => rfl, rfl⟩

theorem notify (h : Host) (b : EventBody) (n : Node) (s : State) :
    ClaimEffect s (notify h b s) n (s.claims.get n) (fun g hs => if g = h then hs.receive (low16 s.timeBase) b else hs) where
  claim := rfl
  others _ _ := rfl
  hosts g := by
    simp only [Machine.notify, State.modHost_hosts, get_upd]
    split
    · next hg => rw [hg]
    · rfl
  aside := rfl

end ClaimEffect

/-! ## Release (R68) -/

/-- R68: a record whose holder has left: its head waiter holds it now, or it is free. -/
def ClaimRecord.passed (now : Word32) (c : ClaimRecord) : ClaimRecord :=
  match c.waiters with
  | [] => { holder := none, waiters := [] }
  | w :: rest => { holder := some { host := w.host, lease := w.lease, leaseEnd := leaseEndAt now w.lease }, waiters := rest }

/-- R68: the head waiter is told that it holds the claim now. -/
def ClaimRecord.tellsGrant (now : Word32) (n : Node) (c : ClaimRecord) (h : Host) (hs : HostState) : HostState :=
  match c.waiters with
  | [] => hs
  | w :: _ =>
    if w.host = h then hs.receive (low16 now) (eventOf .claimGranted (nodeRef n) Reason.granted.code (low16 (leaseEndAt now w.lease)))
    else hs

theorem ClaimEffect.releaseClaim (s : State) (n : Node) :
    ClaimEffect s (releaseClaim n s) n ((s.claims.get n).passed s.timeBase) ((s.claims.get n).tellsGrant s.timeBase n) := by
  cases hw : (s.claims.get n).waiters with
  | nil =>
    rw [releaseClaim_free hw]
    refine (modClaim s n _).congr ?_ fun g hs => ?_
    · simp only [ClaimRecord.passed, hw]
    · simp only [ClaimRecord.tellsGrant, hw]
  | cons w rest =>
    rw [releaseClaim_granted hw]
    have hgiven := modClaim s n fun _ =>
      { holder := some { host := w.host, lease := w.lease, leaseEnd := leaseEndAt s.timeBase w.lease }, waiters := rest }
    refine (hgiven.trans (notify ..)).congr ?_ fun g hs => ?_
    · rw [hgiven.claim]
      simp only [ClaimRecord.passed, hw]
    · simp only [ClaimRecord.tellsGrant, hw, State.modClaim_timeBase, eq_comm]

/-! ## A loop over the nodes -/

/-- Records whose turn has not come are as they were. -/
theorem foldl_claimEffect {f : Node → State → State} {s : State} {c : Node → ClaimRecord} {H : Node → Host → HostState → HostState}
    (hf : ∀ n u, s.SameButClaims u → u.claims.get n = s.claims.get n → ClaimEffect u (f n u) n (c n) (H n))
    (xs : List Node) (hxs : xs.Nodup) (u : State) (hu : s.SameButClaims u) (hclaims : ∀ n ∈ xs, u.claims.get n = s.claims.get n) :
    s.SameButClaims (xs.foldl (fun s n => f n s) u)
    ∧ (∀ n, (xs.foldl (fun s n => f n s) u).claims.get n = if n ∈ xs then c n else u.claims.get n)
    ∧ ∀ h, (xs.foldl (fun s n => f n s) u).hosts.get h = xs.foldl (fun hs n => H n h hs) (u.hosts.get h) := by
  induction xs generalizing u with
  | nil => exact ⟨hu, fun n => by simp, fun _ => rfl⟩
  | cons x xs ih =>
    obtain ⟨hx, hxs⟩ := List.nodup_cons.1 hxs
    have heff := hf x u hu (hclaims x List.mem_cons_self)
    have hlater (n : Node) (hn : n ∈ xs) : (f x u).claims.get n = s.claims.get n := by
      have hne : n ≠ x := fun h => hx (h ▸ hn)
      rw [heff.others n hne]
      exact hclaims n (List.mem_cons_of_mem _ hn)
    obtain ⟨haside, hclaim, hhost⟩ := ih hxs (f x u) (hu.trans heff.aside) hlater
    refine ⟨haside, fun n => (hclaim n).trans ?_, fun h => (hhost h).trans (by rw [List.foldl_cons, heff.hosts])⟩
    by_cases hn : n = x
    · subst hn
      simp [hx, heff.claim]
    · simp [hn, heff.others n hn]

/-- The claim records and hosts after a rule has been taken for every node in ascending reference. -/
structure ClaimsEffect (s t : State) (c : Node → ClaimRecord) (H : Node → Host → HostState → HostState) : Prop where
  claims : ∀ n, t.claims.get n = c n
  hosts : ∀ h, t.hosts.get h = (List.finRange 8).foldl (fun hs n => H n h hs) (s.hosts.get h)
  aside : s.SameButClaims t

theorem forNodes_effect {f : Node → State → State} {s : State} {c : Node → ClaimRecord} {H : Node → Host → HostState → HostState}
    (hf : ∀ n u, s.SameButClaims u → u.claims.get n = s.claims.get n → ClaimEffect u (f n u) n (c n) (H n)) :
    ClaimsEffect s (forNodes f s) c H := by
  obtain ⟨haside, hclaim, hhost⟩ := foldl_claimEffect hf (List.finRange 8) (List.nodup_finRange 8) s rfl fun _ _ => rfl
  exact ⟨fun n => (hclaim n).trans (if_pos (List.mem_finRange n)), hhost, haside⟩

/-! ## The lease check (R72) -/

/-- The record's lease ends at the present count. -/
def ClaimRecord.expired (now : Word32) (c : ClaimRecord) : Bool := c.holder.any fun k => decide (k.leaseEnd = now)

/-- R72: the old holder and then the new one are told. -/
def ClaimRecord.tellsExpiry (now : Word32) (n : Node) (c : ClaimRecord) (h : Host) (hs : HostState) : HostState :=
  match c.holder with
  | none => hs
  | some k =>
    if k.leaseEnd = now then
      c.tellsGrant now n h (if k.host = h then
        hs.receive (low16 now) (eventOf .claimExpired (nodeRef n) Reason.ok.code (k.lease.setWidth 16)) else hs)
    else hs

theorem ClaimEffect.expireClaim (s : State) (n : Node) :
    ClaimEffect s (expireClaim n s) n
      (if (s.claims.get n).expired s.timeBase then (s.claims.get n).passed s.timeBase else s.claims.get n)
      ((s.claims.get n).tellsExpiry s.timeBase n) := by
  cases hk : (s.claims.get n).holder with
  | none =>
    simp only [Machine.expireClaim, hk]
    refine (refl s n).congr ?_ fun g hs => ?_
    · simp only [ClaimRecord.expired, hk, Option.any_none, Bool.false_eq_true, if_false]
    · simp only [ClaimRecord.tellsExpiry, hk]
  | some k =>
    by_cases hend : k.leaseEnd = s.timeBase
    · simp only [Machine.expireClaim, hk, if_pos hend]
      refine ((notify ..).trans (releaseClaim _ n)).congr ?_ fun g hs => ?_
      · simp only [ClaimRecord.expired, hk, Option.any_some, hend, decide_true, if_true]
        rfl
      · simp only [ClaimRecord.tellsExpiry, hk, if_pos hend, eq_comm (a := g)]
        rfl
    · simp only [Machine.expireClaim, hk, if_neg hend]
      refine (refl s n).congr ?_ fun g hs => ?_
      · simp only [ClaimRecord.expired, hk, Option.any_some, hend, decide_false, Bool.false_eq_true, if_false]
      · simp only [ClaimRecord.tellsExpiry, hk, if_neg hend]

theorem expireClaims_effect (s : State) : ClaimsEffect s (expireClaims s)
    (fun n => if (s.claims.get n).expired s.timeBase then (s.claims.get n).passed s.timeBase else s.claims.get n)
    (fun n => (s.claims.get n).tellsExpiry s.timeBase n) := by
  refine forNodes_effect fun n u hu hn => ?_
  have heff := ClaimEffect.expireClaim u n
  rw [hn, hu.timeBase] at heff
  exact heff

theorem takeLeases_closed {s : State} (hclosed : s.due.leases = false) : takeLeases s = s := by
  simp only [takeLeases, hclosed, Bool.false_eq_true, if_false]

theorem takeLeases_open {s : State} (hopen : s.due.leases = true) :
    takeLeases s = expireClaims { s with due := { s.due with leases := false } } := by
  simp only [takeLeases, hopen, if_true]

theorem expireClaims_of_due (s : State) (d : EventParts) : ClaimsEffect { s with due := d } (expireClaims { s with due := d })
    (fun n => if (s.claims.get n).expired s.timeBase then (s.claims.get n).passed s.timeBase else s.claims.get n)
    (fun n => (s.claims.get n).tellsExpiry s.timeBase n) := expireClaims_effect { s with due := d }

/-- Settles O41: the loop's rule, read record by record. -/
theorem leaseExpiryPassesClaims : Obligations.LeaseExpiryPassesClaims := by
  intro s newEnd told
  have heff := expireClaims_of_due s { s.due with leases := false }
  refine ⟨fun hclosed => congrArg Host.Outcome.next (takeLeases_closed hclosed), fun hopen =>
    ⟨_, congrArg Host.Outcome.next (takeLeases_open hopen), heff.aside, fun n => (heff.claims n).trans ?_,
      fun h => (heff.hosts h).trans ?_⟩⟩
  · rfl
  · refine congrArg (fun f => List.foldl f _ _) (funext fun hs => funext fun n => ?_)
    simp only [told, ClaimRecord.tellsExpiry, ClaimRecord.tellsGrant]
    rfl

end Sys2Proof.Machine

/-!
# NOTICE and HELLO frames

What the receiver makes of the two kinds, what a notice of a PRESENT node does to its entries, and what a HELLO does to its node.
-/

namespace Sys2Proof.Machine
set_option Elab.async false

/-! ## The two kinds (R98, R173) -/

section
variable {l : Link}

theorem judgeNotice_length {body : List Byte} (h : body.length ≠ 5) : judgeNotice l body = .bad := by
  unfold judgeNotice
  split
  · exact absurd rfl h
  · rfl

theorem judgeNotice_range {node count a1 a0 len : Byte}
    (h : node.toNat = 0 ∨ 4 < node.toNat ∨ 15 < count.toNat ∨ len.toNat = 0 ∨ 16 < len.toNat) :
    judgeNotice l [node, count, a1, a0, len] = .bad := by
  simp only [judgeNotice]
  cases hn : frameNode l node with
  | none => rfl
  | some n =>
    have hnode : ¬ (node.toNat = 0 ∨ 4 < node.toNat) := fun hout => by simp [frameNode_eq_none hout] at hn
    exact if_neg (by omega)

theorem judgeNotice_good {node count a1 a0 len : Byte} {n : Node} (hn : frameNode l node = some n) (hcount : count.toNat ≤ 15)
    (hlow : 1 ≤ len.toNat) (hhigh : len.toNat ≤ 16) :
    judgeNotice l [node, count, a1, a0, len] = .notice n count (word16 a1 a0) len := by
  simp only [judgeNotice, hn]
  exact if_pos ⟨hcount, hlow, hhigh⟩

theorem judgeHello_bad {body : List Byte} (h : body.length ≠ 1 ∨ ∃ b ∈ body, b.toNat = 0 ∨ 4 < b.toNat) : judgeHello l body = .bad := by
  unfold judgeHello
  split
  · next node =>
    obtain ⟨b, hb, hout⟩ := h.resolve_left (by simp)
    obtain rfl := List.mem_singleton.1 hb
    rw [frameNode_eq_none hout]
  · rfl

theorem judgeHello_good {node : Byte} {n : Node} (hn : frameNode l node = some n) : judgeHello l [node] = .hello n := by
  simp only [judgeHello, hn]

end

/-! ## A notice (R24, R125) -/

theorem Entry.staled_pollable (e : Entry) :
    { e with state := if e.state = .valid then .stale else e.state : Entry }.pollable = e.pollable := by
  by_cases hv : e.state = .valid <;> simp [Entry.pollable, Entry.tooLong, hv]

theorem Entry.marked_eq (e : Entry) : e.marked =
    { e with state := if e.state = .valid then .stale else e.state,
             phase := if e.phase = .idle ∧ e.pollable = true then .queued else e.phase,
             repoll := if e.phase = .inFlight then true else e.repoll } := by
  simp only [Entry.marked, Entry.asked, e.staled_pollable]
  cases hphase : e.phase with
  | idle => cases e.pollable <;> simp
  | queued => simp
  | inFlight => simp

theorem modNode_sameAside {g u : State} (n : Node) (f : NodeRecord → NodeRecord)
    (hu : u = { g with slots := u.slots, pollQueues := u.pollQueues }) :
    u.modNode n f = { g with slots := (u.modNode n f).slots, pollQueues := (u.modNode n f).pollQueues,
                             nodes := (u.modNode n f).nodes } := by
  have hnodes : u.modNode n f = { u with nodes := upd u.nodes n f } := rfl
  rw [hnodes, hu]

/-- The entries a notice marks: all of the node's after a count gap, else those that share a register with it. -/
def State.noticed (s : State) (n : Node) (count : Byte) (address : Word16) (length : Byte) (e : Entry) : Bool :=
  decide (e.node = n) && (!decide (count.setWidth 4 = (s.nodes.get n).noticeCount + 1)
    || rangesShare address.toNat length.toNat e.first.toNat e.length)

theorem takeNotice_eq {n : Node} {count : Byte} {address : Word16} {length : Byte} {s : State} (hp : s.presence n = .present) :
    takeNotice n count address length s =
      (forEntries (s.noticed n count address length) markEntry s).modNode n fun r => { r with noticeCount := count.setWidth 4 } := by
  simp only [takeNotice, hp, ne_eq, not_true_eq_false, if_false]
  rfl

theorem State.noticed_iff (s : State) (n : Node) {count : Byte} (hcount : count.toNat ≤ 15) (address : Word16) (length : Byte) (e : Entry) :
    s.noticed n count address length e = true ↔ e.node = n ∧ (count.toNat ≠ ((s.nodes.get n).noticeCount.toNat + 1) % 16
      ∨ (address.toNat < e.first.toNat + e.length ∧ e.first.toNat < address.toNat + length.toNat)) := by
  have hnext : count.setWidth 4 = (s.nodes.get n).noticeCount + 1 ↔ count.toNat = ((s.nodes.get n).noticeCount.toNat + 1) % 16 := by
    rw [← BitVec.toNat_inj, BitVec.toNat_setWidth, BitVec.toNat_add]
    have hone : (1 : BitVec 4).toNat = 1 := rfl
    omega
  simp only [State.noticed, rangesShare, hnext, Bool.and_eq_true, Bool.or_eq_true, Bool.not_eq_true', decide_eq_true_eq,
    decide_eq_false_iff_not, ne_eq]

/-! ## A HELLO (R87, R88) -/

section
variable {n : Node} {s : State}

theorem takeHello_ignored (h : s.linkState (nodeLink n) ≠ .up ∨ s.presence n = .identifying ∨ s.presence n = .quarantined) :
    takeHello n s = s := by
  unfold takeHello
  split
  · next hup => rcases h.resolve_left (· hup) with h | h <;> rw [h]
  · rfl

theorem takeHello_absent (hup : s.linkState (nodeLink n) = .up) (hp : s.presence n = .absent) :
    takeHello n s = beginIdent n .found s := by
  simp only [takeHello, hup, hp, if_true]

theorem takeHello_present (hup : s.linkState (nodeLink n) = .up) (hp : s.presence n = .present) :
    takeHello n s = restartNode n s := by
  simp only [takeHello, hup, hp, if_true]

end

/-- Settles O51: the frame is judged, and a good one discarded in TRAINING and handed on in ENUMERATING and UP. -/
theorem noticeAndHelloFrames : Obligations.NoticeAndHelloFrames := by
  intro l bytes skipped beyond s frame hb hskip brings good running handed
  have hexec := exec_frame hb s
  have hquiet (hquiet : ¬ running) : exec frame s = .next s := hexec.trans (congrArg Host.Outcome.next (takeLine_quiet hquiet bytes))
  have htaken {kind : Byte} {body : List Byte} (hline : brings kind body) (hrun : running) :
      exec frame s = .next (takeReceived l (judgeBody l kind body) (s.modLink l fun k => { k with received := beyond })) := by
    rw [hexec, takeLine_running hrun (beyond := beyond) (f := judgeBody l kind body)]
    rw [hline.1, List.append_assoc]
    exact receiveFrame_onTheLine l hskip kind hline.2 beyond
  have hbad {kind : Byte} {body : List Byte} (hline : brings kind body) (hrun : running) (hj : judgeBody l kind body = .bad) :
      exec frame s = .next (s.afterBadFrame l beyond) := by
    rw [htaken hline hrun, hj]
    exact congrArg Host.Outcome.next (takeBadFrame_eq hrun beyond)
  have htraining {f : State → State} (h : s.linkState l = .training) :
      grants (takeGoodFrame l f (s.modLink l fun k => { k with received := beyond })) = grants (s.afterDiscarded l beyond) :=
    congrArg grants (takeGoodFrame_training h f beyond)
  have hhanded {f : State → State} (h : handed) :
      grants (takeGoodFrame l f (s.modLink l fun k => { k with received := beyond })) = grants (f good) :=
    congrArg grants (takeGoodFrame_serving h f beyond)
  have hrunning (h : handed) : running := .inr h
  refine ⟨hquiet, fun body hline hrun hout => hbad hline hrun (judgeHello_bad hout),
    fun body hline hrun hlen => hbad hline hrun (judgeNotice_length hlen),
    fun node count a1 a0 len hline hrun hrange => hbad hline hrun (judgeNotice_range hrange), ?_, ?_⟩
  · intro node count a1 a0 len n hline hn hcount hlow hhigh a
    have hframe (hrun : running) : exec frame s = .next (takeReceived l (.notice n count a len)
        (s.modLink l fun k => { k with received := beyond })) := by
      rw [htaken hline hrun]
      exact congrArg (fun f => Host.Outcome.next (takeReceived l f _)) (judgeNotice_good hn hcount hlow hhigh)
    have hpresence : good.presence n = s.presence n := rfl
    refine ⟨fun h => (hframe (.inl h)).trans (congrArg Host.Outcome.next (htraining h)), fun h hp => ?_, fun h hp => ?_⟩
    · refine (hframe (.inr h)).trans (congrArg Host.Outcome.next ((hhanded h).trans (congrArg grants ?_)))
      exact if_pos (hpresence ▸ hp)
    · intro marked
      have happlied := (markEntry_describes good).forEntries (good.noticed n count a len)
      have hmarked (e : Entry) : (good.noticed n count a len e && decide (e.state ≠ .suspended)) = true ↔ marked e := by
        rw [Bool.and_eq_true, good.noticed_iff n hcount, decide_eq_true_eq]
        simp only [marked, and_assoc, and_comm (a := e.state ≠ .suspended)]
        exact Iff.rfl
      have htake := takeNotice_eq (count := count) (address := a) (length := len) (hpresence.trans hp)
      generalize forEntries (good.noticed n count a len) markEntry good = u at happlied htake
      refine ⟨_, (hframe (.inr h)).trans (congrArg Host.Outcome.next ((hhanded h).trans (congrArg grants htake))), modNode_sameAside _ _ (happlied.eq_of_told fun i e h hs => ?_), ?_, fun i => ?_,
        fun m => ?_⟩
      · simp [markRule, EntryRule.when]
      · rw [State.modNode_nodes, State.modNode_nodes, happlied.aside.nodes]
        rfl
      · refine (happlied.slots i).trans (congrArg (fun o => ({ s.slots.get i with entry := o } : Slot)) (?_ : (s.entry i).map _ = _))
        refine Option.map_congr fun e _ => ?_
        simp only [markRule, EntryRule.when, ← ite_and, ← Bool.and_eq_true, hmarked, e.marked_eq]
      · refine (happlied.polls m).trans (congrArg (s.pollQueues.get m ++ List.map s.item ·) (List.filter_congr fun i _ =>
          (?_ : (s.entry i).any _ = _)))
        cases s.entry i with
        | none => rfl
        | some e =>
          rw [Option.any_some, Option.any_some, Bool.eq_iff_iff, decide_eq_true_iff, ← hmarked]
          simp only [markRule, EntryRule.when, e.staled_pollable, Bool.and_eq_true, decide_eq_true_eq, and_assoc]
  · intro node n hline hn
    have hl : nodeLink n = l := ((frameNode_eq_some_iff l node n).1 hn).1
    have hframe (hrun : running) : exec frame s = .next (takeReceived l (.hello n)
        (s.modLink l fun k => { k with received := beyond })) := by
      rw [htaken hline hrun]
      exact congrArg (fun f => Host.Outcome.next (takeReceived l f _)) (judgeHello_good hn)
    have hpresence : good.presence n = s.presence n := rfl
    have hstate : good.linkState (nodeLink n) = s.linkState l := by simp [good, State.linkState, hl, State.afterGoodFrame]
    have hgiven {t : State} (h : handed) (ht : takeHello n good = t) : exec frame s = .next (grants t) :=
      (hframe (.inr h)).trans (congrArg Host.Outcome.next ((hhanded h).trans (congrArg grants ht)))
    refine ⟨fun h => (hframe (.inl h)).trans (congrArg Host.Outcome.next (htraining h)), fun h hno => hgiven h (takeHello_ignored ?_),
      fun hup hp => hgiven (.inr hup) ?_, fun hup hp => hgiven (.inr hup) ?_⟩
    · rw [hstate, hpresence]
      exact hno
    · rw [takeHello_absent (hstate.trans hup) (hpresence.trans hp), beginIdent, issueIdent, hl]
    · rw [takeHello_present (hstate.trans hup) (hpresence.trans hp), restartNode, issueIdent, hl]
      rfl

end Sys2Proof.Machine

/-!
# What hosts are handed

Sequences of events and endings of writes at a host's record, one after another, and loops that hand them.
-/

namespace Sys2Proof.Machine
set_option Elab.async false

/-- One event, or one ending of a write, at a host's record, with `left` covered records still in the queues. -/
def HostState.handedOne (now : Word16) (left : Nat) (hs : HostState) (x : Option EventBody × Bool) : HostState :=
  HostState.handed now left hs [x]

theorem HostState.handed_append (now : Word16) (left : Nat) (hs : HostState) (xs ys : List (Option EventBody × Bool)) :
    hs.handed now left (xs ++ ys)
      = (hs.handed now left xs).handed now (left - xs.countP fun x => x.2) ys := by
  induction xs generalizing left hs with
  | nil => simp [HostState.handed]
  | cons x xs ih =>
    obtain ⟨told, drains⟩ := x
    cases drains with
    | true =>
      simp only [List.cons_append, HostState.handed, if_true]
      rw [ih, List.countP_cons_of_pos rfl, Nat.sub_sub, Nat.add_comm 1]
    | false =>
      simp only [List.cons_append, HostState.handed, Bool.false_eq_true, if_false]
      rw [ih, List.countP_cons_of_neg (by simp)]

theorem HostState.handed_cons (now : Word16) (left : Nat) (hs : HostState) (x : Option EventBody × Bool)
    (xs : List (Option EventBody × Bool)) :
    hs.handed now left (x :: xs) = (hs.handedOne now left x).handed now (left - if x.2 then 1 else 0) xs := by
  have happend := HostState.handed_append now left hs [x] xs
  rw [List.countP_singleton] at happend
  exact happend

theorem HostState.handed_nil (now : Word16) (left : Nat) (hs : HostState) : hs.handed now left [] = hs := rfl

/-- Where nothing drains, the events arrive one after another. -/
def Plain (xs : List (Option EventBody × Bool)) : Prop := ∀ x ∈ xs, x.2 = false

theorem Plain.countP {xs : List (Option EventBody × Bool)} (hxs : Plain xs) : (xs.countP fun x => x.2) = 0 :=
  List.countP_eq_zero.2 fun x hx => by simp [hxs x hx]

theorem Plain.append {xs ys : List (Option EventBody × Bool)} (hxs : Plain xs) (hys : Plain ys) : Plain (xs ++ ys) := fun x hx =>
  (List.mem_append.1 hx).elim (hxs x) (hys x)

theorem Plain.flatMap {α : Type} {f : α → List (Option EventBody × Bool)} (hf : ∀ a, Plain (f a)) (as : List α) :
    Plain (as.flatMap f) := fun x hx => by
  obtain ⟨a, _, ha⟩ := List.mem_flatMap.1 hx
  exact hf a x ha

theorem plain_nil : Plain [] := fun _ hx => nomatch hx

theorem plain_plainly (k : EventKind) (subject reason : Byte) (value : Word16) : Plain [plainly k subject reason value] := fun x hx => by
  rw [List.mem_singleton.1 hx]
  rfl

theorem HostState.handed_plainly (now : Word16) (left : Nat) (hs : HostState) (k : EventKind) (subject reason : Byte) (value : Word16) :
    hs.handed now left [plainly k subject reason value] = hs.receive now (eventOf k subject reason value) := rfl

theorem HostState.handed_append_plain (now : Word16) (left : Nat) (hs : HostState) {xs : List (Option EventBody × Bool)} (hxs : Plain xs)
    (ys : List (Option EventBody × Bool)) : hs.handed now left (xs ++ ys) = (hs.handed now left xs).handed now left ys := by
  rw [HostState.handed_append, hxs.countP, Nat.sub_zero]

/-- A loop that hands plain events. -/
theorem HostState.handed_flatMap {α : Type} (now : Word16) (left : Nat) {f : α → List (Option EventBody × Bool)} (hf : ∀ a, Plain (f a))
    (as : List α) (hs : HostState) :
    hs.handed now left (as.flatMap f) = as.foldl (fun hs a => hs.handed now left (f a)) hs := by
  induction as generalizing hs with
  | nil => rfl
  | cons a as ih => rw [List.flatMap_cons, HostState.handed_append_plain _ _ _ (hf a), ih, List.foldl_cons]

/-- A loop that tells a host what `f` lists is a host handed that list. -/
theorem HostState.foldl_eq_handed {α : Type} (now : Word16) (left : Nat) {f : α → List (Option EventBody × Bool)} (hf : ∀ a, Plain (f a))
    {H : α → HostState → HostState} (hH : ∀ a hs, H a hs = hs.handed now left (f a)) (as : List α) (hs : HostState) :
    as.foldl (fun hs a => H a hs) hs = hs.handed now left (as.flatMap f) := by
  rw [HostState.handed_flatMap now left hf]
  exact congrArg (fun g => List.foldl g hs as) (funext fun hs => funext fun a => hH a hs)

/-- Items filtered out one condition after another. -/
theorem foldl_filter_slots (p : SlotIx → Bool) (xs : List SlotIx) (q : List PollItem) :
    xs.foldl (fun q i => if p i then q.filter fun item => item.slot ≠ i else q) q
      = q.filter fun item => !decide (item.slot ∈ xs ∧ p item.slot = true) := by
  induction xs generalizing q with
  | nil => simp
  | cons x xs ih =>
    rw [List.foldl_cons, ih]
    cases hx : p x with
    | true =>
      simp only [if_true, List.filter_filter]
      refine List.filter_congr fun item _ => ?_
      by_cases hi : item.slot = x
      · simp [hi, hx]
      · simp [hi]
    | false =>
      simp only [Bool.false_eq_true, if_false]
      refine List.filter_congr fun item _ => ?_
      by_cases hi : item.slot = x
      · simp [hi, hx]
      · simp [hi]

/-- The place of every element after a loop that changes each in turn. -/
theorem foldl_upd_get {α : Type} {n : Nat} (f : Fin n → α → α) (v : Vector α n) (j : Fin n) :
    ((List.finRange n).foldl (fun v i => upd v i (f i)) v).get j = f j (v.get j) := by
  have hall (xs : List (Fin n)) (hxs : xs.Nodup) (v : Vector α n) :
      (xs.foldl (fun v i => upd v i (f i)) v).get j = if j ∈ xs then f j (v.get j) else v.get j := by
    induction xs generalizing v with
    | nil => simp
    | cons x xs ih =>
      obtain ⟨hx, hxs⟩ := List.nodup_cons.1 hxs
      rw [List.foldl_cons, ih hxs, get_upd]
      by_cases hj : j = x
      · subst hj; simp [hx]
      · simp [hj]
  rw [hall _ (List.nodup_finRange n), if_pos (List.mem_finRange j)]

/-- A loop over the entries that `p` accepts, slot by slot. -/
theorem forEntries_effect {p : Entry → Bool} {f : SlotIx → State → State} {s : State} {sl : SlotIx → Slot}
    {H : SlotIx → Host → HostState → HostState} {P : SlotIx → Link → List PollItem → List PollItem}
    (hno : ∀ i u, s.SameAside u → u.slots.get i = s.slots.get i → (∀ e ∈ s.entry i, p e = false) →
      SlotEffect u u i (sl i) (H i) (P i))
    (hyes : ∀ i u e, s.SameAside u → u.slots.get i = s.slots.get i → s.entry i = some e → p e = true →
      SlotEffect u (f i u) i (sl i) (H i) (P i)) :
    SlotsEffect s (forEntries p f s) sl H P := by
  refine forSlots_effect fun i u hu hslot => ?_
  have hentry : u.entry i = s.entry i := by rw [State.entry, hslot, State.entry]
  cases he : s.entry i with
  | none =>
    simp only [hentry, he]
    exact hno i u hu hslot (by simp [he])
  | some e =>
    simp only [hentry, he]
    by_cases hp : p e = true
    · rw [if_pos hp]
      exact hyes i u e hu hslot he hp
    · rw [if_neg hp]
      exact hno i u hu hslot (by simpa [he] using hp)

end Sys2Proof.Machine

/-!
# CLEAR_HOST

The parts of host clearing one after another: holder records, writes, claims, fetches, the port and the events.
-/

namespace Sys2Proof.Machine
set_option Elab.async false

/-! ## Holder records (R28) -/

/-- The entry without host `h`'s holder record. -/
abbrev Entry.without (e : Entry) (h : Host) : Entry := e.modHolder h fun _ => none

/-- A host other than `h` holds the entry. -/
def Entry.heldByOthers (e : Entry) (h : Host) : Bool := (List.finRange 3).any fun g => decide (g ≠ h) && (e.holders.get g).isSome

theorem Entry.heldByOthers_iff (e : Entry) (h : Host) : e.heldByOthers h = true ↔ ∃ g, g ≠ h ∧ e.holders.get g ≠ none := by
  simp [Entry.heldByOthers, Option.isSome_iff_ne_none]

theorem Entry.heldByOthers_eq_false (e : Entry) (h : Host) : e.heldByOthers h = false ↔ ∀ g, g ≠ h → e.holders.get g = none := by
  rw [← Bool.not_eq_true, e.heldByOthers_iff]
  simp

/-- The slot of entry `e` after host `h`'s holder record has been removed from it (R14, R28). -/
def State.slotWithout (s : State) (h : Host) (i : SlotIx) (e : Entry) : Slot :=
  if e.heldByOthers h then
    { s.slots.get i with
      entry := some { e.without h with state := if s.pastLimit (e.without h) then .stale else e.state } }
  else { generation := (s.slots.get i).generation + 1, entry := none }

/-- The holders left are told that the entry is past its new limit (R28). -/
def State.tellsWithout (s : State) (h : Host) (i : SlotIx) (e : Entry) (g : Host) (hs : HostState) : HostState :=
  if s.pastLimit (e.without h) && e.heldByOthers h then (e.without h).tells (low16 s.timeBase) i .entryStale .none g hs else hs

theorem SlotEffect.removeHolder {s : State} {i : SlotIx} {e : Entry} (he : s.entry i = some e) (h : Host) :
    SlotEffect s (removeHolder h i s) i (s.slotWithout h i e) (s.tellsWithout h i e)
      (fun l q => if nodeLink e.node = l ∧ e.heldByOthers h = false then q.filter fun item => item.slot ≠ i else q) := by
  cases hothers : e.heldByOthers h with
  | false =>
    rw [removeHolder_last he ((e.heldByOthers_eq_false h).1 hothers)]
    exact
      { slot := by simp [State.slotWithout, hothers]
        others := fun j hj => by simp [hj]
        hosts := fun g => by simp [State.tellsWithout, hothers]
        polls := fun l => by
          simp only [State.modSlot_pollQueues, State.modPolls_pollQueues, get_upd, and_true]
          by_cases hl : l = nodeLink e.node
          · rw [if_pos hl.symm, if_pos hl, hl]
          · rw [if_neg (Ne.symm hl), if_neg hl]
        aside := rfl }
  | true =>
    rw [removeHolder_others he ((e.heldByOthers_iff h).1 hothers)]
    have hleft := modEntry he (Entry.modHolder h fun _ => none)
    cases hpast : s.pastLimit (e.without h) with
    | true =>
      have hpast' : (s.modEntry i (Entry.modHolder h fun _ => none)).pastLimit (e.without h) = true := hpast
      refine (hleft.trans (meetLimit hleft.entry hpast')).congr ?_ (fun g hs => ?_) fun l q => by simp
      · rw [State.slotWithout, if_pos hothers, hleft.slot, hpast]
        rfl
      · simp only [State.tellsWithout, hothers, hpast]
        rfl
    | false =>
      rw [meetLimit_of_not_past fun x hx => by
        rw [hleft.entry] at hx
        obtain rfl : e.without h = x := by simpa using hx
        exact hpast]
      refine hleft.congr ?_ (fun g hs => ?_) fun l q => by simp
      · rw [State.slotWithout, if_pos hothers, hpast]
        rfl
      · simp [State.tellsWithout, hpast]

/-- What removing host `h`'s holder record leaves of slot `i`. -/
def State.slotCleared (s : State) (h : Host) (i : SlotIx) : Slot :=
  (s.entry i).elim (s.slots.get i) fun e => if e.heldBy h then s.slotWithout h i e else s.slots.get i

/-- The entry of the slot goes with its last holder, host `h`, and stands on link `l`. -/
def State.freedBy (s : State) (h : Host) (l : Link) (i : SlotIx) : Bool :=
  (s.entry i).any fun e => decide (nodeLink e.node = l) && e.heldBy h && !e.heldByOthers h

theorem clearHolders_effect (h : Host) (s : State) : SlotsEffect s (clearHolders h s) (s.slotCleared h)
    (fun i g hs => (s.entry i).elim hs fun e => if e.heldBy h then s.tellsWithout h i e g hs else hs)
    (fun i l q => if s.freedBy h l i then q.filter fun item => item.slot ≠ i else q) := by
  refine forEntries_effect (fun i u hu hslot hno => (SlotEffect.refl u i).congr ?_ (fun g hs => ?_) fun l q => ?_)
    fun i u e hu hslot he hheld => ?_
  · simp only [State.slotCleared, hslot]
    cases he : s.entry i with
    | none => rfl
    | some e => simp [hno e he]
  · cases he : s.entry i with
    | none => rfl
    | some e => simp [hno e he]
  · have hstays : s.freedBy h l i = false := by
      unfold State.freedBy
      cases he : s.entry i with
      | none => rfl
      | some e => simp [hno e he]
    simp [hstays]
  · have hentry : u.entry i = some e := by rw [State.entry, hslot]; exact he
    refine (SlotEffect.removeHolder hentry h).congr ?_ (fun g hs => ?_) fun l q => ?_
    · simp only [State.slotCleared, he, Option.elim_some, hheld, if_true, State.slotWithout, hu.pastLimit, hslot]
    · simp only [he, Option.elim_some, hheld, if_true, State.tellsWithout, hu.pastLimit, hu.timeBase]
    · simp only [State.freedBy, he, Option.any_some, hheld, Bool.and_true, Bool.and_eq_true, decide_eq_true_eq, Bool.not_eq_true']

theorem clearHolders_pollQueues (h : Host) (s : State) (l : Link) :
    (clearHolders h s).pollQueues.get l = (s.pollQueues.get l).filter fun item => !s.freedBy h l item.slot := by
  rw [(clearHolders_effect h s).polls, foldl_filter_slots]
  simp

/-! ## Claims (R76) -/

/-- R76: a claim record after host clearing of `h`. -/
def ClaimRecord.cleared (now : Word32) (h : Host) (c : ClaimRecord) : ClaimRecord :=
  if c.holder.any fun k => decide (k.host = h) then c.passed now else { c with waiters := c.waiters.filter fun w => w.host ≠ h }

theorem clearClaims_effect (h : Host) (s : State) : ClaimsEffect s (clearClaims h s)
    (fun n => (s.claims.get n).cleared s.timeBase h)
    (fun n g hs => if (s.claims.get n).holder.any fun k => decide (k.host = h) then
      (s.claims.get n).tellsGrant s.timeBase n g hs else hs) := by
  refine forNodes_effect fun n u hu hn => ?_
  have hholds : u.holdsClaim h n = (s.claims.get n).holder.any fun k => decide (k.host = h) := by rw [State.holdsClaim, hn]
  rw [clearClaim, hholds, ClaimRecord.cleared]
  cases (s.claims.get n).holder.any fun k => decide (k.host = h) with
  | true =>
    have hrelease := ClaimEffect.releaseClaim u n
    rw [hn, hu.timeBase] at hrelease
    exact hrelease
  | false =>
    have hwithdraw := ClaimEffect.modClaim u n fun c => { c with waiters := c.waiters.filter fun w => w.host ≠ h }
    rw [hn] at hwithdraw
    exact hwithdraw

/-! ## Fetches (R130) -/

/-- R130: host `h`'s fetches in flight at the tags `xs` are no longer reported. -/
def Arbiter.unreported (h : Host) (xs : List Tag) (a : Arbiter) : Arbiter :=
  { a with tags := (xs.foldl (fun tags t => upd tags t fun tr => { tr with request := tr.request.map (Request.unreport h) }) a.tags) }

/-- R130: the arbiter after host clearing of `h`. -/
def Arbiter.clearFetch (h : Host) (a : Arbiter) : Arbiter :=
  Arbiter.unreported h (List.finRange 8) { a with fetches := a.fetches.filter fun f => f.host ≠ h }

theorem clearFetch_eq (h : Host) (l : Link) (s : State) : clearFetch h l s = s.modArbiter l (Arbiter.clearFetch h) := by
  have hloop (xs : List Tag) (s : State) :
      xs.foldl (fun s t => s.modArbiter l fun a => a.modTag t fun tr => { tr with request := tr.request.map (Request.unreport h) }) s
        = s.modArbiter l (Arbiter.unreported h xs) := by
    induction xs generalizing s with
    | nil => exact congrArg (fun v => { s with arbiters := v }) (upd_id s.arbiters l).symm
    | cons x xs ih => rw [List.foldl_cons, ih, State.modArbiter_modArbiter]; rfl
  unfold clearFetch forTags
  rw [hloop, State.modArbiter_modArbiter]
  rfl

theorem Arbiter.clearFetch_tags (h : Host) (a : Arbiter) (t : Tag) :
    (a.clearFetch h).tags.get t = { a.tags.get t with request := (a.tags.get t).request.map (Request.unreport h) } := by
  have hloop := foldl_upd_get (fun _ tr => { tr with request := tr.request.map (Request.unreport h) }) a.tags t
  simpa only [Arbiter.clearFetch, Arbiter.unreported] using hloop

theorem Request.unreport_fetch {h : Host} {r : Request} {x : Host} {ticket : Byte} {reported : Bool} (hk : r.kind = .fetch x ticket reported) :
    r.unreport h = if x = h then { r with kind := .fetch x ticket false } else r := by
  simp only [Request.unreport, hk]
  split
  · next hx => simp [hx]
  · next hx => simp [hx, ← hk]

/-! ## The whole (R156) -/

/-- The blocks after host clearing; the cleared host's port and event settings come last. -/
def State.clearedBlocks (h : Host) (s : State) : State := clearFetch h 1 (clearFetch h 0 (clearClaims h (clearWrites h (clearHolders h s))))

section
variable (h : Host) (s : State)

theorem clearedBlocks_eq : State.clearedBlocks h s =
    ((clearClaims h (clearWrites h (clearHolders h s))).modArbiter 0 (Arbiter.clearFetch h)).modArbiter 1 (Arbiter.clearFetch h) := by
  rw [State.clearedBlocks, clearFetch_eq, clearFetch_eq]

theorem clearHost_eq : clearHost h s = (State.clearedBlocks h s).modHost h fun hs => hs.clearPort.clearEvents := by
  rw [clearHost, State.modHost_modHost]
  rfl

/-- What neither slots, poll queues, hosts, writes, claims nor arbiters have a part in. -/
theorem clearedBlocks_read {β : Type} {g : State → β} (hH : IgnoresHosts g) (hS : IgnoresSlots g) (hP : IgnoresPolls g)
    (hW : IgnoresWrites g) (hC : IgnoresClaims g) (hA : IgnoresArbiters g) : g (State.clearedBlocks h s) = g s := by
  rw [clearedBlocks_eq, hA, hA, clearClaims_read hH hC, clearWrites_read hH hW]
  exact forEntries_read _ _ (fun i u => removeHolder_read hH hS hP h i u) s

theorem clearedBlocks_slots (i : SlotIx) : (State.clearedBlocks h s).slots.get i = s.slotCleared h i := by
  rw [clearedBlocks_eq]
  simp only [State.modArbiter_slots]
  rw [clearClaims_read (g := State.slots) (fun _ _ _ => rfl) (fun _ _ _ => rfl),
    clearWrites_read (g := State.slots) (fun _ _ _ => rfl) (fun _ _ _ => rfl)]
  exact (clearHolders_effect h s).slots i

theorem clearedBlocks_pollQueues (l : Link) :
    (State.clearedBlocks h s).pollQueues.get l = (s.pollQueues.get l).filter fun item => !s.freedBy h l item.slot := by
  rw [clearedBlocks_eq]
  simp only [State.modArbiter_pollQueues]
  rw [clearClaims_read (g := State.pollQueues) (fun _ _ _ => rfl) (fun _ _ _ => rfl),
    clearWrites_read (g := State.pollQueues) (fun _ _ _ => rfl) (fun _ _ _ => rfl)]
  exact clearHolders_pollQueues h s l

theorem clearHolders_read {β : Type} {g : State → β} (hH : IgnoresHosts g) (hS : IgnoresSlots g) (hP : IgnoresPolls g) :
    g (clearHolders h s) = g s := forEntries_read _ _ (fun i u => removeHolder_read hH hS hP h i u) s

theorem clearedBlocks_writeQueues (l : Link) : (State.clearedBlocks h s).writeQueues.get l = (s.writeQueues.get l).clear h := by
  rw [clearedBlocks_eq]
  simp only [State.modArbiter_writeQueues]
  rw [clearClaims_read (g := State.writeQueues) (fun _ _ _ => rfl) (fun _ _ _ => rfl), clearWrites_writeQueues,
    clearHolders_read (g := State.writeQueues) h s (fun _ _ _ => rfl) (fun _ _ _ => rfl) (fun _ _ _ => rfl)]

/-- The state in which the claims are cleared has the claims and the time base of the one before. -/
theorem clearWrites_claims : (clearWrites h (clearHolders h s)).claims = s.claims ∧ (clearWrites h (clearHolders h s)).timeBase = s.timeBase :=
  ⟨(clearWrites_read (g := State.claims) (fun _ _ _ => rfl) (fun _ _ _ => rfl) ..).trans
      (clearHolders_read (g := State.claims) h s (fun _ _ _ => rfl) (fun _ _ _ => rfl) (fun _ _ _ => rfl)),
    (clearWrites_read (g := State.timeBase) (fun _ _ _ => rfl) (fun _ _ _ => rfl) ..).trans
      (clearHolders_read (g := State.timeBase) h s (fun _ _ _ => rfl) (fun _ _ _ => rfl) (fun _ _ _ => rfl))⟩

theorem clearedBlocks_claims (n : Node) : (State.clearedBlocks h s).claims.get n = (s.claims.get n).cleared s.timeBase h := by
  rw [clearedBlocks_eq]
  simp only [State.modArbiter_claims]
  rw [(clearClaims_effect h _).claims, (clearWrites_claims h s).1, (clearWrites_claims h s).2]

theorem clearedBlocks_arbiters (l : Link) : (State.clearedBlocks h s).arbiters.get l = (s.arbiters.get l).clearFetch h := by
  have hbefore : (clearClaims h (clearWrites h (clearHolders h s))).arbiters = s.arbiters := by
    rw [clearClaims_read (g := State.arbiters) (fun _ _ _ => rfl) (fun _ _ _ => rfl),
      clearWrites_read (g := State.arbiters) (fun _ _ _ => rfl) (fun _ _ _ => rfl),
      clearHolders_read (g := State.arbiters) h s (fun _ _ _ => rfl) (fun _ _ _ => rfl) (fun _ _ _ => rfl)]
  rw [clearedBlocks_eq, State.modArbiter_arbiters, State.modArbiter_arbiters, hbefore]
  match l with
  | 0 => rw [get_upd_ne _ _ (by decide), get_upd_self]
  | 1 => rw [get_upd_self, get_upd_ne _ _ (by decide)]

theorem clearWrites_hosts : (clearWrites h s).hosts = upd s.hosts h fun hs => { hs with drain := none } := rfl

theorem clearedBlocks_hosts_eq (g : Host) : (State.clearedBlocks h s).hosts.get g =
    (List.finRange 8).foldl (fun hs n => if (s.claims.get n).holder.any fun k => decide (k.host = h) then
        (s.claims.get n).tellsGrant s.timeBase n g hs else hs) ((clearWrites h (clearHolders h s)).hosts.get g) := by
  rw [clearedBlocks_eq]
  simp only [State.modArbiter_hosts]
  rw [(clearClaims_effect h _).hosts, (clearWrites_claims h s).1, (clearWrites_claims h s).2]

/-- Another host's record: the entries past their new limits, then the claims that its waits have won. -/
theorem clearedBlocks_hosts {g : Host} (hg : g ≠ h) : (State.clearedBlocks h s).hosts.get g =
    (List.finRange 8).foldl (fun hs n => if (s.claims.get n).holder.any fun k => decide (k.host = h) then
        (s.claims.get n).tellsGrant s.timeBase n g hs else hs)
      ((List.finRange 48).foldl (fun hs i => (s.entry i).elim hs fun e =>
        if e.heldBy h then s.tellsWithout h i e g hs else hs) (s.hosts.get g)) := by
  rw [clearedBlocks_hosts_eq, clearWrites_hosts, get_upd_ne _ _ hg, (clearHolders_effect h s).hosts]

theorem foldl_of_id {α β : Type} {f : α → β → α} (hf : ∀ a b, f a b = a) (xs : List β) (a : α) : xs.foldl f a = a := by
  induction xs with
  | nil => rfl
  | cons x xs ih => rw [List.foldl_cons, hf, ih]

/-- The cleared host is told nothing: it holds none of the entries left, and waits for none of the claims it holds. -/
theorem clearedBlocks_hosts_self (hclaims : s.claimsOk) :
    (State.clearedBlocks h s).hosts.get h = { s.hosts.get h with drain := none } := by
  have hholders : (clearHolders h s).hosts.get h = s.hosts.get h := by
    rw [(clearHolders_effect h s).hosts]
    refine foldl_of_id (fun hs i => ?_) _ _
    cases s.entry i with
    | none => rfl
    | some e => simp [State.tellsWithout, Entry.tells_eq, Entry.modHolder]
  rw [clearedBlocks_hosts_eq, clearWrites_hosts, get_upd_self, hholders]
  refine foldl_of_id (fun hs n => ?_) _ _
  split
  · next hheld =>
    obtain ⟨k, hk, hkh⟩ := (Option.any_eq_true ..).1 hheld
    obtain ⟨-, -, -, hapart, -⟩ := hclaims n
    unfold ClaimRecord.tellsGrant
    split
    · rfl
    · next w rest hw =>
      have hne : w.host ≠ k.host := (hapart k hk).2 w (hw ▸ List.mem_cons_self)
      exact if_neg fun hwh => hne (hwh.trans (of_decide_eq_true hkh).symm)
  · rfl

end

/-! ## The statement's words -/

/-- What another host `g` is told of slot `i`: its entry is past the limit it has without host `h`. -/
def State.staleEvents (s : State) (h g : Host) (i : SlotIx) : List (Option EventBody × Bool) :=
  match s.entry i with
  | none => []
  | some e =>
    if (e.holders.get h).isSome && s.pastLimit (e.without h) && (e.holders.get g).isSome then
      [plainly .entryStale (byteOf i.val) 0 0] else []

/-- What another host `g` is told of node `n`: it holds the claim that host `h` held. -/
def State.grantEvents (s : State) (h g : Host) (n : Node) : List (Option EventBody × Bool) :=
  match (s.claims.get n).holder, (s.claims.get n).waiters with
  | some k, w :: _ =>
    if k.host = h ∧ w.host = g then
      [plainly .claimGranted (nodeRef n) Reason.granted.code (low16 (s.timeBase + 10 * w.lease.setWidth 32))] else []
  | _, _ => []

theorem plain_ite {p : Prop} [Decidable p] {xs : List (Option EventBody × Bool)} (hxs : Plain xs) : Plain (if p then xs else []) := by
  split
  · exact hxs
  · exact plain_nil

theorem State.staleEvents_plain (s : State) (h g : Host) (i : SlotIx) : Plain (s.staleEvents h g i) := by
  unfold State.staleEvents
  split
  · exact plain_nil
  · exact plain_ite (plain_plainly _ _ _ _)

theorem State.grantEvents_plain (s : State) (h g : Host) (n : Node) : Plain (s.grantEvents h g n) := by
  unfold State.grantEvents
  split
  · exact plain_ite (plain_plainly _ _ _ _)
  · exact plain_nil

theorem tellsWithout_handed (h : Host) (s : State) {g : Host} (hg : g ≠ h) (left : Nat) (i : SlotIx) (hs : HostState) :
    ((s.entry i).elim hs fun e => if e.heldBy h then s.tellsWithout h i e g hs else hs) =
      hs.handed (low16 s.timeBase) left (s.staleEvents h g i) := by
  unfold State.staleEvents
  cases s.entry i with
  | none => rfl
  | some e =>
    have hget : (e.without h).holders.get g = e.holders.get g := by simp [Entry.modHolder, hg]
    simp only [Option.elim_some, State.tellsWithout, Entry.tells_eq, hget]
    cases hheld : (e.holders.get h).isSome with
    | false => simp [Entry.heldBy, hheld, HostState.handed_nil]
    | true =>
      cases hpast : s.pastLimit (e.without h) with
      | false => simp [HostState.handed_nil]
      | true =>
        cases hother : (e.holders.get g).isSome with
        | false => simp [HostState.handed_nil]
        | true =>
          have hothers : e.heldByOthers h = true := (e.heldByOthers_iff h).2 ⟨g, hg, Option.isSome_iff_ne_none.1 hother⟩
          simp [hothers, Entry.heldBy, hheld, HostState.handed_plainly]
          rfl

theorem tellsGrant_handed (h g : Host) (s : State) (left : Nat) (n : Node) (hs : HostState) :
    (if (s.claims.get n).holder.any fun k => decide (k.host = h) then (s.claims.get n).tellsGrant s.timeBase n g hs else hs) =
      hs.handed (low16 s.timeBase) left (s.grantEvents h g n) := by
  unfold State.grantEvents
  unfold ClaimRecord.tellsGrant
  cases (s.claims.get n).holder with
  | none => rfl
  | some k =>
    simp only [Option.any_some, decide_eq_true_eq]
    cases (s.claims.get n).waiters with
    | nil => simp only [ite_self]; rfl
    | cons w rest =>
      dsimp only
      by_cases hk : k.host = h
      · by_cases hw : w.host = g
        · rw [if_pos hk, if_pos hw, if_pos ⟨hk, hw⟩]; rfl
        · rw [if_pos hk, if_neg hw, if_neg fun hc => hw hc.2]; rfl
      · rw [if_neg hk, if_neg fun hc => hk hc.1]; rfl

section
variable (s : State) {h : Host} {i : SlotIx} {e : Entry}

theorem State.slotCleared_left (he : s.entry i = some e) (hothers : e.heldByOthers h = true) :
    s.slotCleared h i = { s.slots.get i with
      entry := some (if e.holders.get h = none then e
        else { e.without h with state := if s.pastLimit (e.without h) then .stale else e.state }) } := by
  have hslot : (s.slots.get i).entry = some e := he
  unfold State.slotCleared
  rw [he, Option.elim_some]
  by_cases hh : e.holders.get h = none
  · rw [if_neg (by simp [Entry.heldBy, hh]), if_pos hh, ← hslot]
  · rw [if_pos (by simp [Entry.heldBy, Option.isSome_iff_ne_none, hh]), State.slotWithout, if_pos hothers, if_neg hh]

theorem State.slotCleared_last (he : s.entry i = some e) (hheld : e.holders.get h ≠ none) (hothers : e.heldByOthers h = false) :
    s.slotCleared h i = { generation := (s.slots.get i).generation + 1, entry := none } := by
  unfold State.slotCleared
  rw [he, Option.elim_some, if_pos (by simp [Entry.heldBy, Option.isSome_iff_ne_none, hheld]), State.slotWithout,
    if_neg (by rw [hothers]; decide)]

theorem State.slotCleared_free (he : s.entry i = none) : s.slotCleared h i = s.slots.get i := by
  unfold State.slotCleared
  rw [he, Option.elim_none]

end

theorem not_clearable (h : Host) (r : WriteRecord) :
    (!clearable h r) = decide (r.origin ≠ h ∨ (r.state ≠ .queued ∧ r.state ≠ .held)) := by
  rw [clearable, ← decide_not, decide_eq_decide]
  simp only [not_and_or, not_or, ne_eq]

/-- R156: the three counts. -/
def State.clearCounts (h : Host) (s : State) : List Byte :=
  [byteOf ((List.finRange 48).countP fun i => (s.entry i).any fun e => (e.holders.get h).isSome),
   byteOf (((s.writeQueues.get 0).order ++ (s.writeQueues.get 1).order).countP fun r =>
     r.origin = h ∧ (r.state = .queued ∨ r.state = .held)),
   byteOf ((List.finRange 8).countP fun n => (s.claims.get n).holder.any (fun k => k.host = h)
     || (s.claims.get n).waiters.any fun w => w.host = h)]

theorem clearCounts_eq (h : Host) (s : State) :
    [byteOf (s.holdings h), byteOf (clearableWrites h s), byteOf (clearableClaims h s)] = s.clearCounts h := by
  have hholdings : s.holdings h = (List.finRange 48).countP fun i => (s.entry i).any fun e => (e.holders.get h).isSome :=
    List.countP_eq_length_filter.symm
  have hclaims : clearableClaims h s = (List.finRange 8).countP fun n => (s.claims.get n).holder.any (fun k => k.host = h)
      || (s.claims.get n).waiters.any fun w => w.host = h := List.countP_eq_length_filter.symm
  have hwrites : clearableWrites h s = ((s.writeQueues.get 0).order ++ (s.writeQueues.get 1).order).countP fun r =>
      r.origin = h ∧ (r.state = .queued ∨ r.state = .held) := by
    rw [List.countP_append, List.countP_eq_length_filter, List.countP_eq_length_filter]
    simp only [clearableWrites, List.finRange_succ, List.finRange_zero, List.map_cons, List.map_nil, List.sum_cons, List.sum_nil,
      Nat.add_zero]
    rfl
  rw [hholdings, hclaims, hwrites, State.clearCounts]

theorem exec_clearHost (h : Host) (b : Byte) (s : State) :
    exec (.clearHost h [b]) s = .next (((State.clearedBlocks h (s.judged .clearHost h [b])).modHost h fun hs =>
      hs.clearPort.clearEvents).withResult h 0x98 .ok ((s.judged .clearHost h [b]).clearCounts h)) := by
  rw [← clearHost_eq, ← clearCounts_eq]
  exact exec_row_of_owner (c := .clearHost) (by simp) rfl rfl rfl

/-- Settles O31: block by block. -/
theorem clearHostClearsOwnShare : Obligations.ClearHostClearsOwnShare := by
  intro h b s s0 without others leaseEnd stale granted hclaims
  have hexec := exec_clearHost h b s
  have hslots := clearedBlocks_slots h s0
  have hpolls := clearedBlocks_pollQueues h s0
  have hwrites := clearedBlocks_writeQueues h s0
  have hclaim := clearedBlocks_claims h s0
  have harbiters := clearedBlocks_arbiters h s0
  have hhosts (g : Host) (hg : g ≠ h) := clearedBlocks_hosts h s0 hg
  have hself := clearedBlocks_hosts_self h s0 hclaims
  have htime : (State.clearedBlocks h s0).timeBase = s0.timeBase := clearedBlocks_read h s0 (g := State.timeBase)
    (fun _ _ _ => rfl) (fun _ _ _ => rfl) (fun _ _ _ => rfl) (fun _ _ _ => rfl) (fun _ _ _ => rfl) (fun _ _ _ => rfl)
  have hperiods : (State.clearedBlocks h s0).periods = s0.periods := clearedBlocks_read h s0 (g := State.periods)
    (fun _ _ _ => rfl) (fun _ _ _ => rfl) (fun _ _ _ => rfl) (fun _ _ _ => rfl) (fun _ _ _ => rfl) (fun _ _ _ => rfl)
  have hnodes : (State.clearedBlocks h s0).nodes = s0.nodes := clearedBlocks_read h s0 (g := State.nodes)
    (fun _ _ _ => rfl) (fun _ _ _ => rfl) (fun _ _ _ => rfl) (fun _ _ _ => rfl) (fun _ _ _ => rfl) (fun _ _ _ => rfl)
  have hlinks : (State.clearedBlocks h s0).links = s0.links := clearedBlocks_read h s0 (g := State.links)
    (fun _ _ _ => rfl) (fun _ _ _ => rfl) (fun _ _ _ => rfl) (fun _ _ _ => rfl) (fun _ _ _ => rfl) (fun _ _ _ => rfl)
  change exec _ s = .next (((State.clearedBlocks h s0).modHost h fun hs => hs.clearPort.clearEvents).withResult h 0x98 .ok
    (s0.clearCounts h)) at hexec
  generalize State.clearedBlocks h s0 = u at *
  clear_value s0
  refine ⟨_, hexec, fun i e he => ⟨fun hyes => (hslots i).trans ?_, fun hheld hno => (hslots i).trans ?_⟩, fun i he => (hslots i).trans ?_,
    fun l => (hpolls l).trans ?_, fun l => (hwrites l).trans ?_, fun n => (hclaim n).trans ?_, fun l => ⟨(harbiters l).trans ?_, fun g => ?_⟩,
    ?_, ?_, fun g hg => ?_, htime, hperiods, hnodes, hlinks⟩
  · exact s0.slotCleared_left he hyes
  · exact s0.slotCleared_last he hheld hno
  · exact s0.slotCleared_free he
  · refine List.filter_congr fun item _ => ?_
    rw [decide_not, Bool.decide_eq_true]
    rfl
  · exact congrArg (fun order => ({ s0.writeQueues.get l with order := order.map fun r =>
      if r.origin = h then { r with reported := false, covered := false } else r } : WriteQueue))
      (List.filter_congr fun r _ => not_clearable h r)
  · rfl
  · exact congrArg (fun tags => ({ s0.arbiters.get l with
      tags := tags, fetches := (s0.arbiters.get l).fetches.filter fun f => f.host ≠ h } : Arbiter)) (congrArg Arbiter.tags (harbiters l)).symm
  · change (u.arbiters.get l).tags.get g = _
    rw [harbiters, Arbiter.clearFetch_tags]
    refine congrArg (fun x => ({ (s0.arbiters.get l).tags.get g with request := x } : TagRecord)) ?_
    refine Option.map_congr fun r _ => ?_
    cases hk : r.kind with
    | fetch x ticket reported => exact r.unreport_fetch hk
    | poll j gen epoch => simp only [Request.unreport, hk]
    | write => simp only [Request.unreport, hk]
    | ident => simp only [Request.unreport, hk]
  · simp only [State.withResult, State.modHost_hosts, get_upd_self, hself]
    rfl
  · simp only [State.withResult, State.modHost_hosts, get_upd_self, hself]
    rfl
  · have hstale : stale g = (List.finRange 48).flatMap (s0.staleEvents h g) := rfl
    have hgranted : granted g = (List.finRange 8).flatMap (s0.grantEvents h g) := rfl
    have hother : ((u.modHost h fun hs => hs.clearPort.clearEvents).withResult h 0x98 .ok (s0.clearCounts h)).hosts.get g = u.hosts.get g := by
      simp only [State.withResult, State.modHost_hosts, get_upd_ne _ _ hg]
    rw [hother, hhosts g hg, hstale, hgranted, State.handed,
      HostState.handed_append_plain _ _ _ (.flatMap (s0.staleEvents_plain h g) _),
      ← HostState.foldl_eq_handed _ _ (s0.grantEvents_plain h g) fun n hs => tellsGrant_handed h g s0 _ n hs,
      ← HostState.foldl_eq_handed _ _ (s0.staleEvents_plain h g) fun i hs => tellsWithout_handed h s0 hg _ i hs]

end Sys2Proof.Machine

/-!
# The invariants right after a reset
-/

namespace Sys2Proof.Machine
set_option Elab.async false

theorem resetPeriods_legal : ∀ c : Fin 4, periodLegal ((#v[8, 32, 128, 1024] : Vector Word16 4).get c) = true := by decide

section
variable (a : Bool) (b : BitVec 2) (n : Nat) (p : List Instr)

theorem resetWith_slots (i : SlotIx) : (State.resetWith a b n p).slots.get i = { generation := 0, entry := none } := get_replicate ..

theorem resetWith_entry (i : SlotIx) : (State.resetWith a b n p).entry i = none := by rw [State.entry, resetWith_slots]

theorem resetWith_pollQueues (l : Link) : (State.resetWith a b n p).pollQueues.get l = [] := get_replicate ..

theorem resetWith_nodes (m : Node) : (State.resetWith a b n p).nodes.get m = NodeRecord.reset := get_replicate ..

theorem resetWith_presence (m : Node) : (State.resetWith a b n p).presence m = .unknown := by
  rw [State.presence, resetWith_nodes]
  rfl

theorem resetWith_arbiters (l : Link) : (State.resetWith a b n p).arbiters.get l = Arbiter.reset := get_replicate ..

theorem resetWith_eventsOk : (State.resetWith a b n p).eventsOk := fun h => by
  rw [resetWith_hosts]
  exact eventQueueOk_nil

theorem resetWith_freshOk : (State.resetWith a b n p).freshOk :=
  ⟨fun c => resetPeriods_legal c, fun i e he => by simp [resetWith_entry] at he⟩

theorem resetWith_aliasesOk : (State.resetWith a b n p).aliasesOk := fun h k w hw => by
  rw [resetWith_hosts, HostState.reset, get_replicate] at hw
  cases hw

theorem resetWith_mirrorOk : (State.resetWith a b n p).mirrorOk := fun i e he => by simp [resetWith_entry] at he

theorem resetWith_pollsOk : (State.resetWith a b n p).pollsOk :=
  ⟨fun l item hitem => by simp [resetWith_pollQueues] at hitem, fun i e he => by simp [resetWith_entry] at he⟩

theorem resetWith_pollsCounted : (State.resetWith a b n p).pollsCounted := fun i => by
  simp [resetWith_pollQueues, resetWith_request, resetWith_entry]

theorem resetWith_quietNodesOk : (State.resetWith a b n p).quietNodesOk := fun m => .inr (.inr (resetWith_presence a b n p m))

theorem resetWith_nodesOk : (State.resetWith a b n p).nodesOk :=
  ⟨resetWith_quietNodesOk a b n p, fun m => by rw [resetWith_nodes]; simp [NodeRecordOk, NodeRecord.reset]⟩

theorem resetWith_trafficOk : (State.resetWith a b n p).trafficOk := by
  refine ⟨resetWith_quietNodesOk a b n p, fun l t r hr => ?_, ⟨fun l => ?_, fun l t r hr => ?_⟩, fun l f hf => ?_,
    ⟨fun i e he => ?_, fun l item hitem => ?_⟩, ⟨fun l r hr => ?_, fun l r hr => ?_⟩, fun l => .inr (.inr ?_)⟩
  · simp [resetWith_request] at hr
  · simp [resetWith_arbiters, Arbiter.reset]
  · simp [resetWith_request] at hr
  · simp [resetWith_arbiters, Arbiter.reset] at hf
  · simp [resetWith_entry] at he
  · simp [resetWith_pollQueues] at hitem
  · simp [resetWith_writeQueues] at hr
  · simp [resetWith_writeQueues] at hr
  · simp [resetWith_arbiters, Arbiter.reset]

theorem resetWith_fetchLimitOk : (State.resetWith a b n p).fetchLimitOk := fun h => by
  simp [resetWith_arbiters, resetWith_request, Arbiter.reset]

end

/-- Settles O3: invariant by invariant. -/
theorem resetMeetsInvariants : Obligations.ResetMeetsInvariants := fun a b n p =>
  ⟨resetWith_eventsOk a b n p, resetWith_claimsOk a b n p, resetWith_freshOk a b n p, resetWith_writeQueuesOk a b n p,
    resetWith_outstandingOk a b n p, resetWith_drainsOk a b n p, resetWith_aliasesOk a b n p, resetWith_mirrorOk a b n p,
    resetWith_pollsOk a b n p, resetWith_pollsCounted a b n p, resetWith_nodesOk a b n p, resetWith_linksOk a b n p,
    resetWith_trafficOk a b n p, resetWith_fetchLimitOk a b n p⟩

end Sys2Proof.Machine

/-!
# No VALID entry past its stale limit (R30, R41 to R43)
-/

namespace Sys2Proof.Machine

set_option Elab.async false

/-- What `freshOk` speaks of. -/
abbrev freshView (s : State) : Vector Word16 4 × EventParts × Vector NodeRecord 8 × Vector Slot 48 := (s.periods, s.due, s.nodes, s.slots)

/-- Stale limits rest on the periods and on which nodes send notices (R6). -/
theorem State.pastLimit_eq {s t : State} (hperiods : t.periods = s.periods) (hsends : ∀ n, t.sendsNotices n = s.sendsNotices n)
    (e : Entry) : t.pastLimit e = s.pastLimit e := by
  simp only [State.pastLimit, State.staleLimit, State.effective, hperiods, hsends]

theorem sendsNotices_of_nodes {s t : State} (hnodes : t.nodes = s.nodes) (n : Node) : t.sendsNotices n = s.sendsNotices n := by
  simp only [State.sendsNotices, hnodes]

/-- Entries that were past their limit before, or while the stale check is open, leave `freshOk`. -/
theorem freshOk_of_entries {s t : State} (hs : s.freshOk) (hperiods : t.periods = s.periods) (hdue : t.due = s.due)
    (hsends : ∀ n, t.sendsNotices n = s.sendsNotices n)
    (hentry : ∀ i, ∀ e' ∈ t.entry i, s.pastLimit e' = true → s.due.stale = true ∨ ∃ j, ∃ e ∈ s.entry j, s.pastLimit e = true) :
    t.freshOk := by
  refine ⟨by simpa only [State.periodsOk, hperiods] using hs.1, fun i e' he' hpast => ?_⟩
  rw [hdue]
  rcases hentry i e' he' (State.pastLimit_eq hperiods hsends e' ▸ hpast) with h | ⟨j, e, he, h⟩
  · exact h
  · exact hs.2 j e he h

/-- Fewer entries. -/
theorem freshOk_of_view {s t : State} (h : freshView t = freshView s) (hs : s.freshOk) : t.freshOk := by
  simp only [freshView, Prod.mk.injEq] at h
  obtain ⟨hperiods, hdue, hnodes, hslots⟩ := h
  refine freshOk_of_entries hs hperiods hdue (sendsNotices_of_nodes hnodes) fun i e he hpast => .inr ⟨i, e, ?_, hpast⟩
  simpa only [State.entry, hslots] using he

theorem freshOk_modEntry {s : State} {i : SlotIx} {f : Entry → Entry}
    (hf : ∀ e ∈ s.entry i, s.periodsOk → s.pastLimit (f e) = true → s.pastLimit e = true ∨ s.due.stale = true) (hs : s.freshOk) :
    (s.modEntry i f).freshOk := by
  refine freshOk_of_entries hs rfl rfl (fun _ => rfl) fun j e' he' hpast => ?_
  rw [State.modEntry_entry] at he'
  split at he'
  · obtain ⟨e, he, rfl⟩ := Option.map_eq_some_iff.1 he'
    exact (hf e he hs.1 hpast).symm.imp_right fun h => ⟨i, e, he, h⟩
  · exact .inr ⟨j, e', he', hpast⟩

/-- Only an entry's poll phase changes. -/
theorem freshOk_modEntry_phase {s : State} {i : SlotIx} {p : Entry → PollPhase} (hs : s.freshOk) :
    (s.modEntry i fun e => { e with phase := p e }).freshOk := freshOk_modEntry (fun _ _ _ h => .inl h) hs

theorem freshOk_touch {s t : State} (h : Touch s t) (hs : s.freshOk) : t.freshOk := by
  cases h with
  | told => exact freshOk_of_view rfl hs
  | kept i f _ hf => exact freshOk_modEntry (fun e he => (hf e he).fresh) hs
  | queued i =>
    rcases queuePoll_cases i s with h | ⟨e, -, -, -, h⟩ <;> rw [h]
    · exact hs
    · have hpolls : (s.modPolls (nodeLink e.node) (· ++ [{ slot := i, generation := (s.slots.get i).generation }])).freshOk :=
        freshOk_of_view rfl hs
      exact freshOk_modEntry_phase hpolls

theorem freshOk_touches {s t : State} (h : Touches s t) (hs : s.freshOk) : t.freshOk := h.keeps (fun _ _ => freshOk_touch) hs

/-- R55: the rest of a write's ending is not about entries. -/
theorem finishWrite_freshView (l : Link) (r : WriteRecord) (o : Reason) (s : State) :
    freshView (finishWrite l r o s) = freshView (tellEnding r o s) := by
  have hcompleted (h : Host) (u : State) : freshView (completeDrain h u) = freshView u :=
    completeDrain_read (g := freshView) (fun _ _ _ => rfl) h u
  rw [finishWrite_eq]
  dsimp only
  rw [apply_ite freshView, hcompleted, ite_self]
  split <;> rfl

theorem freshOk_finishWrite (l : Link) (r : WriteRecord) (o : Reason) {s : State} (hs : s.freshOk) : (finishWrite l r o s).freshOk :=
  freshOk_of_view (finishWrite_freshView ..) (freshOk_touches (tellEnding_touches r o s) hs)

/-- R31, R43: with legal periods, the entries meet their limits at once. -/
theorem freshOk_retimed (c : Fin 4) {p : Word16} (hp : periodLegal p = true) {s : State} (hs : s.freshOk) :
    (checkLimits { s with periods := upd s.periods c fun _ => p }).freshOk := by
  refine ⟨fun d => ?_, fun i e he hpast => absurd hpast (Bool.not_eq_true _ ▸ checkLimits_noPast _ i e he)⟩
  rw [checkLimits_read (g := State.periods) (fun _ _ _ => rfl) fun _ _ _ => rfl, get_upd]
  split
  · exact hp
  · exact hs.1 d

/-- R43, R84: a node's identity is recorded, and where that moves its entries' limits, they meet them at once. -/
theorem freshOk_recordIdentity (n : Node) (i : Identity) (c : BitVec 4) {s : State} (hs : s.freshOk) :
    (recordIdentity n i c s).freshOk := by
  have hsends (m : Node) : (s.identify n i c).sendsNotices m = if m = n then i.sendsNotices else s.sendsNotices m := by
    simp only [State.sendsNotices, State.identify, State.modNode_nodes, get_upd]
    split <;> rfl
  unfold recordIdentity
  dsimp only
  split
  · next hsame =>
    refine freshOk_of_entries (t := s.identify n i c) hs rfl rfl (fun m => ?_) fun j e he hpast => .inr ⟨j, e, he, hpast⟩
    rw [hsends]
    split
    · next hm =>
      obtain ⟨x, hx, hxs⟩ := Option.map_eq_some_iff.1 hsame
      simp only [State.sendsNotices, hm, hx, Option.any_some, hxs]
    · rfl
  · have happlied := (meetLimit_describes (s.identify n i c)).forEntries fun e => decide (e.node = n)
    have hdone : forEntries (fun e => decide (e.node = n)) meetLimit
        (s.modNode n fun r => { r with identity := some i, noticeCount := c })
        = forEntries (fun e => decide (e.node = n)) meetLimit (s.identify n i c) := rfl
    rw [hdone]
    generalize forEntries (fun e => decide (e.node = n)) meetLimit (s.identify n i c) = t at happlied
    have haside := happlied.aside
    have hlimit (e : Entry) : t.pastLimit e = (s.identify n i c).pastLimit e := haside.pastLimit e
    refine ⟨by rw [State.periodsOk, haside.periods]; exact hs.1, fun j e he hpast => ?_⟩
    rw [happlied.entry] at he
    obtain ⟨x, hx, rfl⟩ := Option.map_eq_some_iff.1 he
    rw [congrArg State.due haside]
    rw [hlimit] at hpast
    have hother : x.node ≠ n := by
      intro hn
      have hnext : EntryRule.next (EntryRule.when (fun e => decide (e.node = n)) (limitRule (s.identify n i c))) x
          = if (s.identify n i c).pastLimit x then { x with state := .stale } else x := by
        simp only [EntryRule.when, hn, decide_true, if_true, limitRule]
      rw [hnext] at hpast
      split at hpast
      · simp [State.pastLimit] at hpast
      · next hno => exact hno hpast
    have hsame : EntryRule.next (EntryRule.when (fun e => decide (e.node = n)) (limitRule (s.identify n i c))) x = x := by
      simp only [EntryRule.when, hother, decide_false, Bool.false_eq_true, if_false]
    rw [hsame] at hpast
    refine hs.2 j x hx ?_
    rw [State.pastLimit_iff] at hpast ⊢
    obtain ⟨hvalid, d, hd, hage⟩ := hpast
    refine ⟨hvalid, d, ?_, hage⟩
    rw [← hd, State.effective, State.effective, hsends, if_neg hother]
    rfl

theorem freshOk_act {port : Scope} {net : Bool} {s t : State} (h : Act port net s t) (hs : s.freshOk) : t.freshOk := by
  cases h with
  | touch h => exact freshOk_touch h hs
  | aside _ _ _ _ _ _ _ _ _ hfresh => exact hfresh hs
  | retimed c p _ hp => exact freshOk_retimed c hp hs
  | identified _ n i c => exact freshOk_recordIdentity n i c hs
  | noded _ n f _ hidentity =>
    refine freshOk_of_entries hs rfl rfl (fun m => ?_) fun i e he hpast => .inr ⟨i, e, he, hpast⟩
    simp only [State.sendsNotices, State.modNode_nodes, get_upd]
    split
    · next hm => rw [hidentity, hm]
    · rfl
  | created _ i e _ hfit =>
    refine freshOk_of_entries hs rfl rfl (fun _ => rfl) fun j x hx hpast => ?_
    by_cases hj : j = i
    · obtain rfl : e = x := by simpa [hj] using hx
      exact absurd ((State.pastLimit_iff ..).1 hpast).1 hfit.unread
    · exact .inr ⟨j, x, by simpa [State.entry, State.putEntry, hj] using hx, hpast⟩
  | freed _ i =>
    have hfreed : (s.modSlot i fun sl => { generation := sl.generation + 1, entry := none }).freshOk := by
      refine freshOk_of_entries hs rfl rfl (fun _ => rfl) fun j x hx hpast => .inr ⟨j, x, ?_, hpast⟩
      by_cases hj : j = i
      · simp [State.entry, hj] at hx
      · simpa [State.entry, hj] using hx
    unfold freeSlot
    split
    · exact hfreed
    · exact freshOk_of_view rfl hfreed
  | suspended i =>
    unfold suspendEntry
    split
    · exact hs
    · next e he =>
      split
      · exact hs
      · exact freshOk_modEntry (s := dropPoll i (nodeLink e.node) s) (fun x _ _ hpast => by simp [State.pastLimit] at hpast)
          (freshOk_of_view rfl hs)
  | emptied _ l =>
    have hidle (items : List PollItem) (u : State) (hu : u.freshOk) :
        (items.foldl (fun s item => s.modEntry item.slot fun e => { e with phase := .idle }) u).freshOk := by
      induction items generalizing u with
      | nil => exact hu
      | cons item items ih => exact ih _ (freshOk_modEntry_phase hu)
    exact freshOk_of_view rfl (hidle _ s hs)
  | lapsed h l r why seq => exact freshOk_finishWrite _ _ _ (freshOk_of_view rfl hs)
  | finished l r o => exact freshOk_finishWrite _ _ _ hs
  | granted l =>
    have hgrant := grantOne_grant l s
    generalize grantOne l s = u at hgrant
    cases hgrant with
    | poll t item rest e =>
      exact freshOk_of_view rfl (freshOk_modEntry_phase (s := s.modPolls l fun _ => rest) (freshOk_of_view rfl hs))
    | _ => exact freshOk_of_view rfl hs
  | pollEnded l t r i e f _ hr he _ _ _ _ hallow =>
    refine freshOk_modEntry (s := withdraw l t s) (fun x hx => ?_) (freshOk_of_view rfl hs)
    obtain rfl : e = x := by simpa [he] using (show x ∈ s.entry i from hx)
    exact hallow.fresh
  | writeEnded l t r w o => exact freshOk_finishWrite _ _ _ (freshOk_of_view rfl hs)
  | _ => exact freshOk_of_view rfl hs

/-- Settles O6: each change leaves the VALID entries below their limits, or moves the limits and has the entries meet them. -/
theorem freshnessKept : Obligations.FreshnessKept :=
  step_keeps (P := State.freshOk) resetWith_freshOk fun _ _ => freshOk_act

end Sys2Proof.Machine

/-!
# Nodes and links (Chapters 5 and 6)

What each unit makes of the node and link records.
-/

namespace Sys2Proof.Machine

set_option Elab.async false

/-- The node and link records. -/
abbrev netView (s : State) : Vector NodeRecord 8 × Vector LinkRecord 2 := (s.nodes, s.links)

theorem netView_of_acts {port : Scope} {s t : State} (h : Acts port false s t) : netView t = netView s := Prod.ext h.nodes_links.1 h.nodes_links.2

theorem eitherOrder_netView (b : Bool) {f k : State → State} (hf : ∀ u, netView (f u) = netView u) (hk : ∀ u, netView (k u) = netView u)
    (s : State) : netView (eitherOrder b f k s) = netView s := by
  obtain ⟨n, h | h⟩ := eitherOrder_cases b f k s <;> rw [h]
  · rw [hk, hf]
  · rw [hf, hk]

theorem nodeEvent_netView (k : EventKind) (n : Node) (why : Reason) (v : Word16) (s : State) :
    netView (nodeEvent k n why v s) = netView s := netView_of_acts (nodeEvent_acts (port := ⟨false, false, false⟩) ..)

theorem failNodeWrites_netView (n : Node) (st : WriteState) (why : Reason) (s : State) :
    netView (failNodeWrites n st why s) = netView s :=
  failWrites_read (g := netView) (fun _ _ _ => rfl) (fun _ _ _ => rfl) (fun _ _ _ => rfl) (fun _ _ _ => rfl) ..

/-! ## The units -/

theorem leavePresent_links (n : Node) (p : Presence) (cause : Option IdentCause) (why : Reason) (s : State) :
    (leavePresent n p cause why s).links = s.links :=
  leavePresent_read (g := State.links) (fun _ _ _ => rfl) (fun _ _ _ => rfl) (fun _ _ _ => rfl) (fun _ _ _ => rfl)
    (fun _ _ _ => rfl) (fun _ _ _ => rfl) (fun _ _ => rfl) n p cause why s

/-- R80: the owners leave the records alone. -/
theorem leavePresent_netView (n : Node) (p : Presence) (cause : Option IdentCause) (why : Reason) (s : State) :
    netView (leavePresent n p cause why s)
      = (upd s.nodes n fun r => { r with presence := p, cause := cause, timeouts := 0 }, s.links) := by
  rw [netView, leavePresent_nodes, leavePresent_links]

theorem issueIdent_netView (n : Node) (s : State) : netView (issueIdent n s) = netView s := rfl

theorem beginIdent_netView (n : Node) (c : IdentCause) (s : State) :
    netView (beginIdent n c s) = (upd s.nodes n fun r => { r with presence := .identifying, cause := some c }, s.links) := rfl

/-- R84, R85: the record of a node whose IDENT was answered. -/
def NodeRecord.answered (i : Identity) (c : BitVec 4) (r : NodeRecord) : NodeRecord :=
  let r' := { r with identity := some i, noticeCount := c, cause := none }
  if pinAccepts r.pin i.vendor i.model then { r' with presence := .present, timeouts := 0 } else { r' with presence := .quarantined }

/-- R83: the record of a node whose IDENT failed. -/
def NodeRecord.unanswered (r : NodeRecord) : NodeRecord := { r with presence := .absent, cause := none }

theorem recordIdentity_netView (n : Node) (i : Identity) (c : BitVec 4) (s : State) :
    netView (recordIdentity n i c s) = netView (s.identify n i c) :=
  netView_of_acts (Acts.of_touches (port := ⟨false, false, false⟩) (recordIdentity_touches ..))

theorem becomePresent_netView (n : Node) (k : Option EventKind) (m : Word16) (s : State) :
    netView (becomePresent n k m s)
      = netView (s.modNode n fun r => { r with presence := .present, cause := none, timeouts := 0 }) := by
  have hresume (u : State) : netView (resumeNode n u) = netView u :=
    resumeNode_read (g := netView) (fun _ _ _ => rfl) (fun _ _ _ => rfl) (fun _ _ _ => rfl) ..
  have hrelease (u : State) : netView (releaseWrites n u) = netView u :=
    releaseWrites_read (g := netView) (fun _ _ _ => rfl) (fun _ _ _ => rfl) (fun _ _ _ => rfl) (fun _ _ _ => rfl) ..
  unfold becomePresent
  dsimp only
  rw [eitherOrder_netView _ hresume hrelease]
  cases k with
  | none => rfl
  | some k => exact nodeEvent_netView ..

theorem identAnswered_netView (n : Node) (i : Identity) (c : BitVec 4) (s : State) :
    netView (identAnswered n i c s) = (upd s.nodes n (NodeRecord.answered i c), s.links) := by
  have hid := recordIdentity_netView n i c s
  simp only [netView, Prod.mk.injEq] at hid
  obtain ⟨hnodes, hlinks⟩ := hid
  unfold identAnswered
  dsimp only
  split
  · next hpin =>
    rw [becomePresent_netView, netView, State.modNode_nodes, State.modNode_links, hnodes, hlinks]
    refine Prod.ext ?_ rfl
    simp only [State.identify, State.modNode_nodes, upd_upd]
    exact upd_congr _ _ (by simp only [NodeRecord.answered, hpin, if_true])
  · next hpin =>
    rw [failNodeWrites_netView, nodeEvent_netView, netView, State.modNode_nodes, State.modNode_links, hnodes, hlinks]
    refine Prod.ext ?_ rfl
    simp only [State.identify, State.modNode_nodes, upd_upd]
    exact upd_congr _ _ (by simp only [NodeRecord.answered, hpin, Bool.false_eq_true, if_false])

theorem identFailed_netView (n : Node) (o : Reason) (s : State) :
    netView (identFailed n o s) = (upd s.nodes n NodeRecord.unanswered, s.links) := by
  unfold identFailed
  dsimp only
  rw [failNodeWrites_netView]
  split
  · exact nodeEvent_netView ..
  · rfl

/-- R83 to R86: what an IDENT's ending is. -/
theorem identEnded_cases (n : Node) (o : Reason) (data : List Byte) (s : State) :
    identEnded n o data s = s
    ∨ s.presence n = .identifying ∧
      ((∃ i c, o = .ok ∧ identityOf data = some (i, c)
          ∧ identEnded n o data s = reportEnumeration (nodeLink n) (identAnswered n i c s))
        ∨ ((o = .timeout ∨ o = .busy ∨ o = .refused ∨ o = .badAddress)
          ∧ identEnded n o data s = reportEnumeration (nodeLink n) (identFailed n o s))) := by
  unfold identEnded
  split
  · exact .inl rfl
  · next hn =>
    have hn : s.presence n = .identifying := by simpa using hn
    split
    case h_1 =>
      split
      · exact .inl rfl
      · next i c hi => exact .inr ⟨hn, .inl ⟨i, c, rfl, hi, rfl⟩⟩
    case h_2 => exact .inr ⟨hn, .inr ⟨.inl rfl, rfl⟩⟩
    case h_3 => exact .inr ⟨hn, .inr ⟨.inr (.inl rfl), rfl⟩⟩
    case h_4 => exact .inr ⟨hn, .inr ⟨.inr (.inr (.inl rfl)), rfl⟩⟩
    case h_5 => exact .inr ⟨hn, .inr ⟨.inr (.inr (.inr rfl)), rfl⟩⟩
    all_goals exact .inl rfl

/-- R86, R101: the end of an enumeration takes an ENUMERATING link UP. -/
theorem reportEnumeration_netView (l : Link) (s : State) :
    netView (reportEnumeration l s) = netView s
    ∨ s.linkState l = .enumerating
      ∧ netView (reportEnumeration l s) = (s.nodes, upd s.links l fun k => { k with state := .up, stamp := low16 s.timeBase }) := by
  unfold reportEnumeration
  split
  · next h => exact .inr ⟨h.1, netView_of_acts (broadcast_acts (port := ⟨false, false, false⟩) ..)⟩
  · exact .inl rfl

theorem departNodes_links (l : Link) (s : State) : (departNodes l s).links = s.links := by
  unfold departNodes
  induction linkNodes l generalizing s with
  | nil => rfl
  | cons n ns ih => rw [List.foldl_cons, ih]; rfl

/-- R91, R104: what a departure makes of the records. -/
theorem departLink_records (l : Link) (next : LinkState) (why : Reason) (s : State) :
    (∀ n, (departLink l next why s).nodes.get n = if nodeLink n = l then (s.nodes.get n).depart else s.nodes.get n)
    ∧ (departLink l next why s).links = upd s.links l fun k => k.depart next why s.timeBase := by
  have hrest (b : Bool) (p : Entry → Bool) (u : State) :=
    (netView_of_acts (departLink_rest_acts (port := ⟨false, false, false⟩) l why b p (emptyPollQueue l (departNodes l u)))).trans
      (emptyPollQueue_read (g := netView) (fun _ _ _ => rfl) (fun _ _ _ => rfl) ..)
  have hquiet : netView (goQuiet l (s.modLink l fun k => k.depart next why s.timeBase))
      = (s.nodes, upd s.links l fun k => k.depart next why s.timeBase) := rfl
  have htold (c : Bool) (b : EventBody) (u : State) : netView (if c = true then broadcast b u else u) = netView u := by
    split
    · exact netView_of_acts (broadcast_acts (port := ⟨false, false, false⟩) ..)
    · rfl
  unfold departLink
  generalize hq : goQuiet l (s.modLink l fun k => k.depart next why s.timeBase) = q at hquiet
  have hdone (b : Bool) (p : Entry → Bool) (c : Bool) (x : EventBody) :
      let t := forEntries p suspendEntry (eitherOrder b (departArbiter l (failureReason why)) (departWrites l (failureReason why))
        (emptyPollQueue l (departNodes l (if c = true then broadcast x q else q))))
      (∀ n, t.nodes.get n = if nodeLink n = l then (s.nodes.get n).depart else s.nodes.get n)
        ∧ t.links = upd s.links l fun k => k.depart next why s.timeBase := by
    have h := hrest b p (if c = true then broadcast x q else q)
    have hnet := (htold c x q).trans hquiet
    simp only [netView, Prod.mk.injEq] at h hnet
    refine ⟨fun n => ?_, ?_⟩
    · rw [h.1, departNodes_nodes, hnet.1]
    · rw [h.2, departNodes_links, hnet.2]
  exact hdone ..

/-- R86, R101: the four nodes of an ENUMERATING link are IDENTIFYING. -/
theorem enterEnumerating_records (l : Link) (s : State) :
    (∀ n, (enterEnumerating l s).nodes.get n = if nodeLink n = l
        then { s.nodes.get n with presence := .identifying, cause := some .enumeration } else s.nodes.get n)
    ∧ (enterEnumerating l s).links = upd s.links l fun k => k.enumerate s.timeBase := by
  have hfold (ns : List Node) (u : State) :
      netView (ns.foldl (fun s n => beginIdent n .enumeration s) u)
        = netView (ns.foldl (fun s n => s.modNode n fun r => { r with presence := .identifying, cause := some .enumeration }) u) := by
    have hkey (ns : List Node) (u v : State) (h : netView u = netView v) :
        netView (ns.foldl (fun s n => beginIdent n .enumeration s) u)
          = netView (ns.foldl (fun s n => s.modNode n fun r => { r with presence := .identifying, cause := some .enumeration }) v) := by
      induction ns generalizing u v with
      | nil => exact h
      | cons n ns ih =>
        refine ih _ _ ?_
        simp only [netView, Prod.mk.injEq] at h
        rw [beginIdent_netView, netView, State.modNode_nodes, State.modNode_links, h.1, h.2]
    exact hkey ns u u rfl
  have hlinks (ns : List Node) (f : NodeRecord → NodeRecord) (u : State) : (ns.foldl (fun s n => s.modNode n f) u).links = u.links := by
    induction ns generalizing u with
    | nil => rfl
    | cons n ns ih => rw [List.foldl_cons, ih]; rfl
  unfold enterEnumerating
  have h := hfold (linkNodes l) (s.modLink l fun k => k.enumerate s.timeBase)
  simp only [netView, Prod.mk.injEq] at h
  refine ⟨fun n => ?_, ?_⟩
  · refine (congrArg (fun v : Vector NodeRecord 8 => v.get n) h.1).trans ?_
    rw [foldl_modNode_nodes _ (linkNodes_nodup l)]
    simp only [mem_linkNodes]
    rfl
  · exact h.2.trans (hlinks ..)

end Sys2Proof.Machine

/-!
# Node records in accord with links and pins (Chapter 5)
-/

namespace Sys2Proof.Machine

set_option Elab.async false

/-- R78, R91: a link on which there is traffic, or a node that is UNKNOWN. -/
def busyOr (st : LinkState) (p : Presence) : Prop := st = .enumerating ∨ st = .up ∨ p = .unknown

theorem busyOr_of_ne {st : LinkState} {p q : Presence} (h : busyOr st p) (hp : p ≠ .unknown) : busyOr st q := by
  rcases h with h | h | h
  · exact .inl h
  · exact .inr (.inl h)
  · exact absurd h hp

theorem State.quietNodesOk_iff (s : State) : s.quietNodesOk ↔ ∀ n, busyOr (s.linkState (nodeLink n)) (s.presence n) := Iff.rfl

/-- The records that Chapter 5 describes. -/
abbrev State.recordsOk (s : State) : Prop := ∀ n, NodeRecordOk (s.nodes.get n)

theorem quietNodesOk_of_view {s t : State} (h : netView t = netView s) (hs : s.quietNodesOk) : t.quietNodesOk := by
  simp only [netView, Prod.mk.injEq] at h
  simpa only [State.quietNodesOk, State.linkState, State.presence, h.1, h.2] using hs

/-- Only the record of node `m` changes, and its presence only while its link is busy. -/
theorem quietNodesOk_of_node {s t : State} (m : Node) {f : NodeRecord → NodeRecord} (hnet : netView t = (upd s.nodes m f, s.links))
    (hbusy : s.presence m ≠ .unknown ∨ ∀ r, (f r).presence = r.presence) (hs : s.quietNodesOk) : t.quietNodesOk := by
  rw [State.quietNodesOk_iff] at hs ⊢
  simp only [netView, Prod.mk.injEq] at hnet
  obtain ⟨hnodes, hlinks⟩ := hnet
  intro n
  have hs := hs n
  rw [State.linkState, hlinks, State.presence, hnodes, get_upd]
  split
  · next hn =>
    subst hn
    rcases hbusy with hbusy | hbusy
    · exact busyOr_of_ne hs hbusy
    · rw [hbusy]
      exact hs
  · exact hs

/-- A link moves between states without traffic, or keeps its state, or enters UP; or its nodes are UNKNOWN. -/
theorem quietNodesOk_of_link {s t : State} (l : Link)
    (hothers : ∀ n, nodeLink n ≠ l → t.presence n = s.presence n ∧ t.linkState (nodeLink n) = s.linkState (nodeLink n))
    (hl : ∀ n, nodeLink n = l → s.quietNodesOk → busyOr (t.linkState l) (t.presence n)) (hs : s.quietNodesOk) : t.quietNodesOk := by
  rw [State.quietNodesOk_iff]
  intro n
  by_cases hn : nodeLink n = l
  · exact hn ▸ hl n hn hs
  · rw [(hothers n hn).1, (hothers n hn).2]
    exact hs n

theorem recordsOk_of_view {s t : State} (h : netView t = netView s) (hs : s.recordsOk) : t.recordsOk := by
  simp only [netView, Prod.mk.injEq] at h
  exact fun n => h.1 ▸ hs n

theorem recordsOk_of_node {s t : State} (m : Node) {f : NodeRecord → NodeRecord} (hnet : netView t = (upd s.nodes m f, s.links))
    (hok : NodeRecordOk (s.nodes.get m) → NodeRecordOk (f (s.nodes.get m))) (hs : s.recordsOk) : t.recordsOk := by
  simp only [netView, Prod.mk.injEq] at hnet
  intro n
  rw [hnet.1, get_upd]
  split
  · next hn => exact hn ▸ hok (hs m)
  · exact hs n

/-- R82: a node that begins to be identified. -/
theorem nodeRecordOk_identifying {r : NodeRecord} (c : IdentCause) (h : NodeRecordOk r) (hzero : r.timeouts = 0) :
    NodeRecordOk { r with presence := .identifying, cause := some c } :=
  ⟨by simp, by simp [hzero], fun _ => hzero, h.2.2.2.1, by simp⟩

/-- R80, R91: a node that is neither PRESENT nor IDENTIFYING. -/
theorem nodeRecordOk_gone {r : NodeRecord} {p : Presence} (hp : p ≠ .present) (hp' : p ≠ .identifying) (h : NodeRecordOk r) :
    NodeRecordOk { r with presence := p, cause := none, timeouts := 0 } :=
  ⟨by simp [hp'], by simp, by simp, h.2.2.2.1, fun hpresent => absurd hpresent hp⟩

/-- R84: the max length recorded is 1 to 8. -/
theorem identityOf_maxLength {data : List Byte} {i : Identity} {c : BitVec 4} (h : identityOf data = some (i, c)) :
    1 ≤ i.maxLength ∧ i.maxLength ≤ 8 := by
  unfold identityOf at h
  split at h
  · simp only [Option.some.injEq, Prod.mk.injEq] at h
    obtain ⟨rfl, -⟩ := h
    dsimp only
    repeat' split
    all_goals omega
  · contradiction

theorem nodeRecordOk_answered {r : NodeRecord} {i : Identity} (c : BitVec 4) (hi : 1 ≤ i.maxLength ∧ i.maxLength ≤ 8)
    (hp : r.presence = .identifying) (h : NodeRecordOk r) : NodeRecordOk (r.answered i c) := by
  obtain ⟨-, -, hzero, -, -⟩ := h
  have hzero : r.timeouts = 0 := hzero (by simp [hp])
  unfold NodeRecord.answered
  dsimp only
  split
  · next hpin => exact ⟨by simp, by simp, by simp, by simpa using hi, fun _ => ⟨i, rfl, hpin⟩⟩
  · exact ⟨by simp, by simp [hzero], fun _ => hzero, by simpa using hi, by simp⟩

theorem nodeRecordOk_unanswered {r : NodeRecord} (hp : r.presence = .identifying) (h : NodeRecordOk r) : NodeRecordOk r.unanswered := by
  obtain ⟨-, -, hzero, hlength, -⟩ := h
  have hzero : r.timeouts = 0 := hzero (by simp [hp])
  exact ⟨by simp [NodeRecord.unanswered], by simp [NodeRecord.unanswered, hzero], fun _ => hzero, hlength, by simp [NodeRecord.unanswered]⟩

/-! ## The two parts of `nodesOk`, unit by unit -/

theorem quietNodesOk_reportEnumeration (l : Link) {s : State} (hs : s.quietNodesOk) : (reportEnumeration l s).quietNodesOk := by
  rcases reportEnumeration_netView l s with h | ⟨-, h⟩
  · exact quietNodesOk_of_view h hs
  · simp only [netView, Prod.mk.injEq] at h
    refine quietNodesOk_of_link l (fun n hn => ?_) (fun n hn _ => .inr (.inl ?_)) hs
    · rw [State.presence, State.linkState, h.1, h.2, get_upd_ne _ _ hn]
      exact ⟨rfl, rfl⟩
    · rw [State.linkState, h.2, get_upd_self]

theorem recordsOk_reportEnumeration (l : Link) {s : State} (hs : s.recordsOk) : (reportEnumeration l s).recordsOk := by
  have hnodes : (reportEnumeration l s).nodes = s.nodes := by
    rcases reportEnumeration_netView l s with h | ⟨-, h⟩ <;> exact congrArg Prod.fst h
  exact fun n => hnodes ▸ hs n

theorem quietNodesOk_identEnded (n : Node) (o : Reason) (data : List Byte) {s : State} (hs : s.quietNodesOk) :
    (identEnded n o data s).quietNodesOk := by
  rcases identEnded_cases n o data s with h | ⟨hn, ⟨i, c, -, -, h⟩ | ⟨-, h⟩⟩ <;> rw [h]
  · exact hs
  · exact quietNodesOk_reportEnumeration _ (quietNodesOk_of_node n (identAnswered_netView n i c s) (.inl (by simp [hn])) hs)
  · exact quietNodesOk_reportEnumeration _ (quietNodesOk_of_node n (identFailed_netView n o s) (.inl (by simp [hn])) hs)

theorem recordsOk_identEnded (n : Node) (o : Reason) (data : List Byte) {s : State} (hs : s.recordsOk) :
    (identEnded n o data s).recordsOk := by
  rcases identEnded_cases n o data s with h | ⟨hn, ⟨i, c, -, hi, h⟩ | ⟨-, h⟩⟩ <;> rw [h]
  · exact hs
  · exact recordsOk_reportEnumeration _ (recordsOk_of_node n (identAnswered_netView n i c s)
      (nodeRecordOk_answered c (identityOf_maxLength hi) hn) hs)
  · exact recordsOk_reportEnumeration _ (recordsOk_of_node n (identFailed_netView n o s) (nodeRecordOk_unanswered hn) hs)

/-- R80: a node leaves, with what was done to its record before. -/
theorem leavePresent_netView_of {n : Node} {p : Presence} {cause : Option IdentCause} (why : Reason) {f : NodeRecord → NodeRecord}
    {s u : State} (hnet : netView u = (upd s.nodes n f, s.links)) :
    netView (leavePresent n p cause why u)
      = (upd s.nodes n fun r => { f r with presence := p, cause := cause, timeouts := 0 }, s.links) := by
  simp only [netView, Prod.mk.injEq] at hnet
  rw [leavePresent_netView, hnet.1, hnet.2, upd_upd]

theorem nodeEvent_netView_id (k : EventKind) (n : Node) (why : Reason) (v : Word16) (s : State) :
    netView (nodeEvent k n why v s) = (upd s.nodes n fun r => r, s.links) := by
  rw [nodeEvent_netView, netView, upd_id]

theorem beginIdent_netView_of (n : Node) (cause : IdentCause) (f : NodeRecord → NodeRecord) (s : State) :
    netView (beginIdent n cause (s.modNode n f))
      = (upd s.nodes n fun r => { f r with presence := .identifying, cause := some cause }, s.links) := by
  rw [beginIdent_netView, State.modNode_nodes, upd_upd]
  rfl

/-- R80: a node that leaves PRESENT has a record in order. -/
theorem nodeRecordOk_left {r r' : NodeRecord} {p : Presence} {cause : Option IdentCause} (hidentity : r'.identity = r.identity)
    (hp : p ≠ .present) (hcause : cause.isSome ↔ p = .identifying) (h : NodeRecordOk r) :
    NodeRecordOk { r' with presence := p, cause := cause, timeouts := 0 } :=
  ⟨hcause, by simp, by simp, by dsimp only; rw [hidentity]; exact h.2.2.2.1, fun hpresent => absurd hpresent hp⟩

theorem quietNodesOk_move {port : Scope} {s t : State} (h : Move port s t) (hs : s.quietNodesOk) : t.quietNodesOk := by
  cases h with
  | acts h => exact quietNodesOk_of_view (netView_of_acts (h false)) hs
  | linked l f _ _ hstate =>
    refine quietNodesOk_of_link (s := s) l (fun n hn => ⟨rfl, ?_⟩) (fun n hn hs => ?_) hs
    · rw [State.modLink_linkState, if_neg hn]
    · have hs := hs n
      rw [hn] at hs
      rw [State.modLink_linkState, if_pos rfl]
      rcases hstate with h | ⟨⟨hne, hnu⟩, -⟩
      · rw [h]
        exact hs
      · exact .inr (.inr ((hs.resolve_left hne).resolve_left hnu))
  | resent l t r =>
    refine quietNodesOk_of_link (s := s) l (fun n hn => ⟨rfl, ?_⟩) (fun n hn hs => ?_) hs
    · rw [resend, State.modLink_linkState, if_neg hn, State.modArbiter_linkState']
    · rw [resend, State.modLink_linkState, if_pos rfl]
      exact hn ▸ hs n
  | noded n f _ hf => exact quietNodesOk_of_node n rfl (.inr fun r => (hf r).1) hs
  | begun n cause f _ hf _ hn =>
    exact quietNodesOk_of_node n (beginIdent_netView_of ..) (.inl (by rcases hn with h | h <;> simp [h])) hs
  | left n p why k reason v f _ hf hn hp =>
    exact quietNodesOk_of_node n (leavePresent_netView_of _ (nodeEvent_netView ..)) (.inl (by simp [hn])) hs
  | restarted n _ hn =>
    refine quietNodesOk_of_view (issueIdent_netView ..) ?_
    exact quietNodesOk_of_node n (leavePresent_netView_of _ (nodeEvent_netView_id ..)) (.inl (by simp [hn])) hs
  | departed l next why f _ hnext hstate hrunning =>
    obtain ⟨hnodes, hlinks⟩ := departLink_records l next why (s.modLink l f)
    refine quietNodesOk_of_link l (fun n hn => ?_) (fun n hn _ => .inr (.inr ?_)) hs
    · rw [State.presence, hnodes, if_neg hn, State.linkState, hlinks, get_upd_ne _ _ hn, State.modLink_links, get_upd_ne _ _ hn]
      exact ⟨rfl, rfl⟩
    · rw [State.presence, hnodes, if_pos hn]
      rfl
  | enumerated l f _ hstate =>
    obtain ⟨hnodes, hlinks⟩ := enterEnumerating_records l (s.modLink l f)
    refine quietNodesOk_of_link l (fun n hn => ?_) (fun n hn _ => .inl ?_) hs
    · rw [State.presence, hnodes, if_neg hn, State.linkState, hlinks, get_upd_ne _ _ hn, State.modLink_links, get_upd_ne _ _ hn]
      exact ⟨rfl, rfl⟩
    · rw [State.linkState, hlinks, get_upd_self]
      rfl
  | identEnded l t r o data _ hr hident =>
    exact quietNodesOk_identEnded _ _ _
      (quietNodesOk_of_view (freeTag_read (g := netView) (fun _ _ _ => rfl) (fun _ _ => rfl) ..) hs)

theorem recordsOk_move {port : Scope} {s t : State} (h : Move port s t) (hquiet : s.quietNodesOk) (hs : s.recordsOk) : t.recordsOk := by
  cases h with
  | acts h => exact recordsOk_of_view (netView_of_acts (h false)) hs
  | linked l f => exact hs
  | resent l t r => exact hs
  | noded n f _ hf hok => exact recordsOk_of_node n (s := s) rfl hok hs
  | begun n cause f _ hf htimeouts hn =>
    refine recordsOk_of_node n (beginIdent_netView_of ..) (fun h => ?_) hs
    have hzero : (s.nodes.get n).timeouts = 0 := h.2.2.1 (by rcases hn with h | h <;> simp [State.presence] at h <;> simp [h])
    exact ⟨by simp, by simp [htimeouts, hzero], fun _ => (htimeouts _).trans hzero,
      by dsimp only; rw [(hf _).2]; exact h.2.2.2.1, by simp⟩
  | left n p why k reason v f _ hf hn hp =>
    refine recordsOk_of_node n (leavePresent_netView_of _ (nodeEvent_netView ..)) (nodeRecordOk_left (hf _).2 ?_ ?_) hs
    · rcases hp with ⟨rfl, -⟩ | ⟨rfl, -⟩ <;> simp
    · rcases hp with ⟨rfl, -⟩ | ⟨rfl, -⟩ <;> simp
  | restarted n _ hn =>
    exact recordsOk_of_view (issueIdent_netView ..)
      (recordsOk_of_node n (leavePresent_netView_of _ (nodeEvent_netView_id ..)) (nodeRecordOk_left rfl (by simp) (by simp)) hs)
  | departed l next why f =>
    obtain ⟨hnodes, -⟩ := departLink_records l next why (s.modLink l f)
    intro n
    rw [hnodes]
    split
    · exact nodeRecordOk_gone (by simp) (by simp) (hs n)
    · exact hs n
  | enumerated l f _ hstate =>
    obtain ⟨hnodes, -⟩ := enterEnumerating_records l (s.modLink l f)
    intro n
    rw [hnodes]
    split
    · next hl =>
      have hunknown : (s.nodes.get n).presence = .unknown := by
        rcases hquiet n with h | h | h
        · simp [hl, hstate] at h
        · simp [hl, hstate] at h
        · exact h
      exact nodeRecordOk_identifying _ (hs n) ((hs n).2.2.1 (by simp [hunknown]))
    · exact hs n
  | identEnded l t r o data _ hr hident =>
    exact recordsOk_identEnded _ _ _
      (recordsOk_of_view (freeTag_read (g := netView) (fun _ _ _ => rfl) (fun _ _ => rfl) ..) hs)

/-- Settles O10: each unit that moves a node's presence or a link's state leaves the two in accord, and the others leave both. -/
theorem nodeRecordsKept : Obligations.NodeRecordsKept :=
  step_keeps_of_moves (P := State.nodesOk) resetWith_nodesOk fun _ _ h hs => ⟨quietNodesOk_move h hs.1, recordsOk_move h hs.1 hs.2⟩

end Sys2Proof.Machine

/-!
# Traffic in accord with presence, change by change (R79, R82, R97, R115)

What `trafficOk` says of requests, entries and writes, said of the work that a node may have instead of the presence it has now: so
it can be followed through a rule which has moved a presence and has not yet ended the node's work.
-/

namespace Sys2Proof.Machine

set_option Elab.async false

/-! ## Work and the presence it needs -/

/-- The kinds of work that wait for a node or are in flight to it: served only while PRESENT, its IDENT, a HELD write. -/
inductive Work where
  | served
  | ident
  | held
  deriving DecidableEq

/-- The presence a node has while it has such work (R57, R79, R82). -/
def Work.needs : Work → Presence
  | .served => .present
  | .ident | .held => .identifying

/-- The kind of work that a request in flight is. -/
def Request.work (r : Request) : Work := if r.isIdent then .ident else .served

/-- The work that the nodes' presences call for. -/
def State.usual (s : State) (n : Node) (k : Work) : Prop := s.presence n = k.needs

/-- What the presences of `s` let new work come up for is admitted. -/
def State.Admits (s : State) (W : Node → Work → Prop) : Prop :=
  ∀ n, (s.presence n = .present → W n .served) ∧ (s.presence n = .identifying → W n .held)

/-- Requests, IDENTs and fetches (R79, R82, R115): only admitted work, and one IDENT of a node. -/
structure State.LinesFit (s : State) (W : Node → Work → Prop) : Prop where
  requests : ∀ l t, ∀ r ∈ s.request l t, nodeLink r.node = l ∧ W r.node r.work
  nodup : ∀ l, (s.arbiters.get l).idents.Nodup
  idents : ∀ l, ∀ n ∈ (s.arbiters.get l).idents, nodeLink n = l ∧ W n .ident
  single : ∀ l t, ∀ r ∈ s.request l t, r.isIdent = true → r.node ∉ (s.arbiters.get l).idents
    ∧ ∀ u, u ≠ t → ∀ x ∈ s.request l u, x.isIdent = true → x.node ≠ r.node
  fetches : ∀ l, ∀ f ∈ (s.arbiters.get l).fetches, nodeLink f.node = l ∧ W f.node .served

/-- Entries and queued polls (R12, R25, R37). -/
structure State.EntriesFit (s : State) (W : Node → Work → Prop) : Prop where
  entries : ∀ i, ∀ e ∈ s.entry i, e.state ≠ .suspended → W e.node .served
  items : ∀ l, ∀ item ∈ s.pollQueues.get l, ∃ e ∈ s.entry item.slot, nodeLink e.node = l ∧ e.state ≠ .suspended

/-- One write record (R53, R57). -/
def WriteRecord.Fits (W : Node → Work → Prop) (l : Link) (r : WriteRecord) : Prop :=
  nodeLink r.node = l ∧ (r.state = .queued → W r.node .served) ∧ (r.state = .held → W r.node .held)

/-- One reservation (R50). -/
def WriteRecord.FitsReserved (W : Node → Work → Prop) (l : Link) (r : WriteRecord) : Prop :=
  nodeLink r.node = l ∧ (r.lapse = none → W r.node .served)

/-- The write queues. -/
structure State.WritesFit (s : State) (W : Node → Work → Prop) : Prop where
  order : ∀ l, ∀ r ∈ (s.writeQueues.get l).order, r.Fits W l
  reserved : ∀ l, ∀ r ∈ (s.writeQueues.get l).reserved, r.FitsReserved W l

/-- All of it. -/
structure State.TrafficFits (s : State) (W : Node → Work → Prop) : Prop where
  lines : s.LinesFit W
  entries : s.EntriesFit W
  writes : s.WritesFit W

theorem Request.usual_iff (s : State) (r : Request) :
    s.usual r.node r.work ↔ s.presence r.node = if r.isIdent then .identifying else .present := by
  unfold State.usual Request.work
  split <;> rfl

theorem State.trafficOk_iff (s : State) : s.trafficOk ↔ s.quietNodesOk ∧ s.quietLinesOk ∧ s.TrafficFits s.usual := by
  constructor
  · rintro ⟨hquiet, hrequests, hidents, hfetches, hentries, hwrites, hlines⟩
    exact ⟨hquiet, hlines, ⟨fun l t r hr => ⟨(hrequests l t r hr).1, r.usual_iff s |>.2 (hrequests l t r hr).2⟩,
      fun l => (hidents.1 l).1, fun l => (hidents.1 l).2, hidents.2, hfetches⟩, ⟨hentries.1, hentries.2⟩, ⟨hwrites.1, hwrites.2⟩⟩
  · rintro ⟨hquiet, hlines, ⟨hrequests, hnodup, hidents, hsingle, hfetches⟩, ⟨hentries, hitems⟩, ⟨horder, hreserved⟩⟩
    exact ⟨hquiet, fun l t r hr => ⟨(hrequests l t r hr).1, r.usual_iff s |>.1 (hrequests l t r hr).2⟩,
      ⟨fun l => ⟨hnodup l, hidents l⟩, hsingle⟩, hfetches, ⟨hentries, hitems⟩, ⟨horder, hreserved⟩, hlines⟩

/-! ## What each part speaks of -/

abbrev entryView (s : State) : Vector Slot 48 × Vector (List PollItem) 2 := (s.slots, s.pollQueues)

section
variable {W : Node → Work → Prop} {s t : State}

theorem State.LinesFit.of_arbiters (h : s.LinesFit W) (hv : t.arbiters = s.arbiters) : t.LinesFit W := by
  obtain ⟨h1, h2, h3, h4, h5⟩ := h
  simp only [State.request] at h1 h2 h3 h4 h5
  constructor <;> simp only [State.request, hv] <;> assumption

theorem State.EntriesFit.of_view (h : s.EntriesFit W) (hv : entryView t = entryView s) : t.EntriesFit W := by
  simp only [entryView, Prod.mk.injEq] at hv
  obtain ⟨hs, hp⟩ := hv
  obtain ⟨h1, h2⟩ := h
  simp only [State.entry] at h1 h2
  constructor <;> simp only [State.entry, hs, hp] <;> assumption

theorem State.WritesFit.of_writes (h : s.WritesFit W) (hv : t.writeQueues = s.writeQueues) : t.WritesFit W :=
  ⟨fun l => hv ▸ h.order l, fun l => hv ▸ h.reserved l⟩

end

/-! ## Requests -/

theorem Request.SameWork.isIdent {r r' : Request} (h : r.SameWork r') : r'.isIdent = r.isIdent := by
  have key (x : Request) : x.isIdent = (x.polled.isNone && !x.isWrite && (List.finRange 3).all fun h => !x.fetchOf h) := by
    have hhosts (g : Host) : (List.finRange 3).all (fun h => !decide (g = h)) = false := by revert g; decide
    unfold Request.isIdent Request.polled Request.isWrite Request.fetchOf
    cases x.kind with
    | fetch g => simp [hhosts g]
    | _ => simp
  rw [key, key, h.polled, h.isWrite]
  simp only [h.fetchOf]

section
variable {W : Node → Work → Prop} {s : State}

/-- R118: a freed tag. -/
theorem State.LinesFit.withdraw {l : Link} {t : Tag} (h : s.LinesFit W) : (withdraw l t s).LinesFit W := by
  have hsub {m : Link} {u : Tag} {r : Request} (hr : r ∈ (Machine.withdraw l t s).request m u) : r ∈ s.request m u := by
    rw [withdraw_request] at hr
    split at hr
    · cases hr
    · exact hr
  have ha (m : Link) : ((Machine.withdraw l t s).arbiters.get m).idents = (s.arbiters.get m).idents
      ∧ ((Machine.withdraw l t s).arbiters.get m).fetches = (s.arbiters.get m).fetches := by
    simp only [Machine.withdraw, State.modArbiter_arbiters, get_upd]
    split
    · next hm => rw [hm]; exact ⟨rfl, rfl⟩
    · exact ⟨rfl, rfl⟩
  refine ⟨fun m u r hr => h.requests m u r (hsub hr), fun m => (ha m).1 ▸ h.nodup m, fun m n hn => h.idents m n ((ha m).1 ▸ hn),
    fun m u r hr hi => ?_, fun m f hf => h.fetches m f ((ha m).2 ▸ hf)⟩
  rw [(ha m).1]
  exact ⟨(h.single m u r (hsub hr) hi).1, fun v hv x hx => (h.single m u r (hsub hr) hi).2 v hv x (hsub hx)⟩

/-- R111: a tag granted to admitted work. -/
theorem State.LinesFit.grantTag {l : Link} {t : Tag} {c : RequestClass} {r : Request} (h : s.LinesFit W)
    (hlink : nodeLink r.node = l) (hwork : W r.node r.work)
    (hnew : r.isIdent = true → r.node ∉ (s.arbiters.get l).idents
      ∧ ∀ u, ∀ x ∈ s.request l u, x.isIdent = true → x.node ≠ r.node) : (grantTag l t c r s).LinesFit W := by
  have ha (m : Link) : ((Machine.grantTag l t c r s).arbiters.get m).idents = (s.arbiters.get m).idents
      ∧ ((Machine.grantTag l t c r s).arbiters.get m).fetches = (s.arbiters.get m).fetches := by
    simp only [Machine.grantTag, State.modArbiter_arbiters, get_upd]
    split
    · next hm => rw [hm]; exact ⟨rfl, rfl⟩
    · exact ⟨rfl, rfl⟩
  have hcases {m : Link} {u : Tag} {x : Request} (hx : x ∈ (Machine.grantTag l t c r s).request m u) :
      (m = l ∧ u = t ∧ x = r) ∨ (¬ (m = l ∧ u = t) ∧ x ∈ s.request m u) := by
    rw [grantTag_request] at hx
    split at hx
    · next hmu => exact .inl ⟨hmu.1, hmu.2, (Option.some.inj hx).symm⟩
    · next hmu => exact .inr ⟨hmu, hx⟩
  refine ⟨fun m u x hx => ?_, fun m => (ha m).1 ▸ h.nodup m, fun m n hn => h.idents m n ((ha m).1 ▸ hn),
    fun m u x hx hi => ?_, fun m f hf => h.fetches m f ((ha m).2 ▸ hf)⟩
  · rcases hcases hx with ⟨rfl, rfl, rfl⟩ | ⟨-, hx⟩
    · exact ⟨hlink, hwork⟩
    · exact h.requests m u x hx
  · rw [(ha m).1]
    rcases hcases hx with ⟨rfl, rfl, rfl⟩ | ⟨hmu, hx⟩
    · refine ⟨(hnew hi).1, fun v hv y hy hyi => ?_⟩
      rcases hcases hy with ⟨-, h, -⟩ | ⟨-, hy⟩
      · exact absurd h hv
      · exact (hnew hi).2 v y hy hyi
    · have hx' := hx
      refine ⟨(h.single m u x hx hi).1, fun v hv y hy hyi => ?_⟩
      rcases hcases hy with ⟨rfl, rfl, rfl⟩ | ⟨-, hy⟩
      · exact ((hnew hyi).2 u x hx' hi).symm
      · exact (h.single m u x hx hi).2 v hv y hy hyi

/-- A change of an arbiter that keeps the work in flight, and hands no IDENT over. -/
theorem State.LinesFit.modArbiter {l : Link} {f : Arbiter → Arbiter} (h : s.LinesFit W)
    (hwork : ∀ t, Option.Rel Request.SameWork ((s.arbiters.get l).tags.get t).request ((f (s.arbiters.get l)).tags.get t).request)
    (hidents : (f (s.arbiters.get l)).idents.Sublist (s.arbiters.get l).idents)
    (hfetches : ∀ x ∈ (f (s.arbiters.get l)).fetches, nodeLink x.node = l ∧ W x.node .served) : (s.modArbiter l f).LinesFit W := by
  have hreq {m : Link} {t : Tag} {r' : Request} (hr' : r' ∈ (s.modArbiter l f).request m t) :
      ∃ r ∈ s.request m t, r'.node = r.node ∧ r'.isIdent = r.isIdent := by
    rw [State.modArbiter_request] at hr'
    split at hr'
    · next hm =>
      subst hm
      have hw := hwork t
      rw [show ((f (s.arbiters.get m)).tags.get t).request = some r' from hr'] at hw
      simp only [State.request]
      generalize ((s.arbiters.get m).tags.get t).request = x at hw
      cases hw with
      | some hw => exact ⟨_, rfl, hw.node, hw.isIdent⟩
    · exact ⟨r', hr', rfl, rfl⟩
  have hids (m : Link) : ((s.modArbiter l f).arbiters.get m).idents.Sublist (s.arbiters.get m).idents := by
    rw [State.modArbiter_arbiters, get_upd]
    split
    · next hm => rw [hm]; exact hidents
    · exact .refl _
  refine ⟨fun m t r' hr' => ?_, fun m => (h.nodup m).sublist (hids m), fun m n hn => h.idents m n ((hids m).subset hn),
    fun m t r' hr' hi => ?_, fun m x hx => ?_⟩
  · obtain ⟨r, hr, hnode, hident⟩ := hreq hr'
    rw [Request.work, hnode, hident]
    exact h.requests m t r hr
  · obtain ⟨r, hr, hnode, hident⟩ := hreq hr'
    obtain ⟨hpending, hothers⟩ := h.single m t r hr (hident ▸ hi)
    rw [hnode]
    refine ⟨fun hn => hpending ((hids m).subset hn), fun u hu x' hx' hxi => ?_⟩
    obtain ⟨x, hx, hxnode, hxident⟩ := hreq hx'
    rw [hxnode]
    exact hothers u hu x hx (hxident ▸ hxi)
  · rw [State.modArbiter_arbiters, get_upd] at hx
    split at hx
    · next hm => exact hm ▸ hfetches x hx
    · exact h.fetches m x hx

theorem sameWork_refl (a : Arbiter) (t : Tag) : Option.Rel Request.SameWork (a.tags.get t).request (a.tags.get t).request := by
  cases (a.tags.get t).request with
  | none => exact .none
  | some r => exact .some .rfl

/-- R113 to R115: a grant is made for a node that may have it. -/
theorem State.TrafficFits.grant_lines {l : Link} {u : State} (hgrant : Grant l s u) (h : s.TrafficFits W) : u.LinesFit W := by
  cases hgrant with
  | none => exact h.lines
  | write t r hfree hup hr =>
    obtain ⟨hmem, hqueued, -⟩ := offered_some hr
    obtain ⟨hlink, hserved, -⟩ := h.writes.order l r hmem
    exact State.LinesFit.grantTag (h.lines.of_arbiters rfl) hlink (hserved hqueued) (by simp [newRequest, Request.isIdent])
  | ident t n rest hfree hlink hidents =>
    have hmem : n ∈ (s.arbiters.get l).idents := hidents ▸ List.mem_cons_self
    have hnodup := hidents ▸ h.lines.nodup l
    obtain ⟨hnlink, hwork⟩ := h.lines.idents l n hmem
    have hrest : (s.modArbiter l fun a => { a with idents := rest }).LinesFit W :=
      h.lines.modArbiter (sameWork_refl _) (by rw [hidents]; exact List.sublist_cons_self ..) (h.lines.fetches l)
    refine State.LinesFit.grantTag hrest hnlink hwork fun _ => ⟨?_, fun u x hx hi heq => ?_⟩
    · simpa [newRequest] using (List.nodup_cons.1 hnodup).1
    · rw [modArbiter_request_of_tags (f := fun a => { a with idents := rest }) fun _ => rfl] at hx
      exact (h.lines.single l u x hx hi).1 (heq ▸ hmem)
  | fetch t f rest hfree hup hidents hfetches =>
    obtain ⟨hflink, hwork⟩ := h.lines.fetches l f (hfetches ▸ List.mem_cons_self)
    have hrest : (s.modArbiter l fun a => { a with fetches := rest }).LinesFit W :=
      h.lines.modArbiter (sameWork_refl _) (.refl _) fun x hx => h.lines.fetches l x (hfetches ▸ List.mem_cons_of_mem _ hx)
    exact State.LinesFit.grantTag hrest hflink hwork (by simp [newRequest, Request.isIdent])
  | poll t item rest e hfree hup hidents hfetches hpolls he =>
    obtain ⟨x, hx, hxlink, hstate⟩ := h.entries.items l item (hpolls ▸ List.mem_cons_self)
    obtain rfl : e = x := by simpa [he] using hx
    exact State.LinesFit.grantTag (h.lines.of_arbiters rfl) hxlink (h.entries.entries _ e he hstate)
      (by simp [newRequest, Request.isIdent])
  | dropped item rest hpolls he => exact h.lines.of_arbiters rfl

theorem State.LinesFit.of_act {port : Scope} {t : State} (hact : Act port false s t) (hadm : s.Admits W) (h : s.TrafficFits W) :
    t.LinesFit W := by
  cases hact with
  | touch ht => exact h.lines.of_arbiters ht.arbiters
  | aside _ _ _ harbiters => exact h.lines.of_arbiters harbiters
  | retimed => exact h.lines.of_arbiters (retimed_arbiters ..)
  | freed _ i => exact h.lines.of_arbiters (freeSlot_arbiters ..)
  | suspended i => exact h.lines.of_arbiters (suspendEntry_arbiters ..)
  | emptied _ l => exact h.lines.of_arbiters (emptyPollQueue_arbiters ..)
  | granted l => exact h.grant_lines (grantOne_grant l s)
  | lined l f _ hf hquiet =>
    exact h.lines.modArbiter hf.request (hquiet.resolve_left (by simp)).idents (hf.fetches ▸ h.lines.fetches l)
  | fetching l x _ _ hpresent =>
    refine h.lines.modArbiter (sameWork_refl _) (.refl _) fun y hy => ?_
    rcases List.mem_append.1 hy with hy | hy
    · exact h.lines.fetches l y hy
    · rw [List.mem_singleton.1 hy]
      exact ⟨hpresent.1, (hadm _).1 hpresent.2⟩
  | unfetched l p =>
    exact h.lines.modArbiter (sameWork_refl _) (.refl _) fun y hy => h.lines.fetches l y (List.mem_of_mem_filter hy)
  | discarded l t r => exact h.lines.withdraw
  | pollEnded l t r i e f => exact (h.lines.withdraw (l := l) (t := t)).of_arbiters rfl
  | writeEnded l t r w o => exact h.lines.withdraw.of_arbiters (finishWrite_arbiters ..)
  | lapsed g l r why seq => exact h.lines.of_arbiters (finishWrite_arbiters ..)
  | finished l r o => exact h.lines.of_arbiters (finishWrite_arbiters ..)
  | noded hn | linked hn | identified hn => cases hn
  | _ => exact h.lines.of_arbiters rfl

/-! ## Copies and the frame being sent -/

/-- R97: links stay as they are, and an arbiter with nothing to send gets nothing to send unless its link is busy. -/
theorem quietLinesOk_of_arbiters {t : State} (hlinks : t.links = s.links)
    (ha : ∀ l, s.linkState l = .enumerating ∨ s.linkState l = .up ∨ ((s.arbiters.get l).txOrder = [] → (s.arbiters.get l).onLine = none →
      (t.arbiters.get l).txOrder = [] ∧ (t.arbiters.get l).onLine = none)) (h : s.quietLinesOk) : t.quietLinesOk := by
  intro l
  rw [State.linkState, hlinks]
  rcases h l with hl | hl | ⟨htx, hline⟩
  · exact .inl hl
  · exact .inr (.inl hl)
  · exact (ha l).imp_right (Or.imp_right fun h => h htx hline)

theorem quietLinesOk_of_same {t : State} (harbiters : t.arbiters = s.arbiters) (hlinks : t.links = s.links) (h : s.quietLinesOk) :
    t.quietLinesOk :=
  quietLinesOk_of_arbiters hlinks (fun l => .inr (.inr fun htx hline => by rw [harbiters]; exact ⟨htx, hline⟩)) h

theorem quietLinesOk_modArbiter {l : Link} {f : Arbiter → Arbiter} (hf : s.linkState l = .enumerating ∨ s.linkState l = .up
      ∨ ((s.arbiters.get l).txOrder = [] → (s.arbiters.get l).onLine = none →
        (f (s.arbiters.get l)).txOrder = [] ∧ (f (s.arbiters.get l)).onLine = none)) (h : s.quietLinesOk) :
    (s.modArbiter l f).quietLinesOk := by
  refine quietLinesOk_of_arbiters (by rfl) (fun m => ?_) h
  rw [State.modArbiter_arbiters, get_upd]
  split
  · next hm => exact hm ▸ hf
  · exact .inr (.inr fun htx hline => ⟨htx, hline⟩)

theorem quietLinesOk_withdraw (l : Link) (t : Tag) (h : s.quietLinesOk) : (withdraw l t s).quietLinesOk :=
  quietLinesOk_modArbiter (.inr (.inr fun htx hline => ⟨by simp [htx], hline⟩)) h

theorem quietLinesOk_grant {l : Link} {u : State} (hgrant : Grant l s u) (h : s.quietLinesOk) : u.quietLinesOk := by
  have hbusy (v : State) (t : Tag) (c : RequestClass) (r : Request) (hlinks : v.links = s.links) (hv : v.quietLinesOk)
      (hl : s.linkState l = .enumerating ∨ s.linkState l = .up) : (grantTag l t c r v).quietLinesOk :=
    quietLinesOk_modArbiter (by rw [State.linkState, hlinks]; exact hl.imp_right .inl) hv
  cases hgrant with
  | none => exact h
  | write t r hfree hup => exact hbusy _ t .write _ rfl (quietLinesOk_of_same rfl rfl h) (.inr hup)
  | ident t n rest hfree hlink =>
    exact hbusy _ t .read _ rfl (quietLinesOk_modArbiter (.inr (.inr fun h h' => ⟨h, h'⟩)) h) hlink.symm
  | fetch t f rest hfree hup => exact hbusy _ t .read _ rfl (quietLinesOk_modArbiter (.inr (.inr fun h h' => ⟨h, h'⟩)) h) (.inr hup)
  | poll t item rest e hfree hup => exact hbusy _ t .read _ rfl (quietLinesOk_of_same rfl rfl h) (.inr hup)
  | dropped => exact quietLinesOk_of_same (by rfl) (by rfl) h

theorem quietLinesOk_act {port : Scope} {t : State} (hact : Act port false s t) (h : s.quietLinesOk) : t.quietLinesOk := by
  have hlinks : t.links = s.links := (Acts.nodes_links (.single hact)).2
  cases hact with
  | touch ht => exact quietLinesOk_of_same ht.arbiters hlinks h
  | aside _ _ _ harbiters => exact quietLinesOk_of_same harbiters hlinks h
  | retimed => exact quietLinesOk_of_same (retimed_arbiters ..) hlinks h
  | freed _ i => exact quietLinesOk_of_same (freeSlot_arbiters ..) hlinks h
  | suspended i => exact quietLinesOk_of_same (suspendEntry_arbiters ..) hlinks h
  | emptied _ l => exact quietLinesOk_of_same (emptyPollQueue_arbiters ..) hlinks h
  | granted l => exact quietLinesOk_grant (grantOne_grant l s) h
  | lined l f _ hf hquiet => exact quietLinesOk_modArbiter (.inr (.inr (hquiet.resolve_left (by simp)).line)) h
  | fetching l | unfetched l => exact quietLinesOk_modArbiter (.inr (.inr fun h h' => ⟨h, h'⟩)) h
  | discarded l t r => exact quietLinesOk_withdraw l t h
  | pollEnded l t r i e f => exact quietLinesOk_of_same (by rfl) (by rfl) (quietLinesOk_withdraw l t h)
  | writeEnded l t r w o => exact quietLinesOk_of_same (finishWrite_arbiters ..) (by rw [hlinks]; rfl) (quietLinesOk_withdraw l t h)
  | lapsed | finished => exact quietLinesOk_of_same (finishWrite_arbiters ..) hlinks h
  | noded hn | linked hn | identified hn => cases hn
  | _ => exact quietLinesOk_of_same rfl hlinks h

/-! ## Entries and queued polls -/

/-- An entry that stays SUSPENDED or not, or is resumed for a PRESENT node. -/
theorem State.EntriesFit.modEntry {i : SlotIx} {f : Entry → Entry} (h : s.EntriesFit W)
    (hf : ∀ e ∈ s.entry i, (f e).node = e.node ∧ ((f e).state = .suspended → e.state = .suspended)
      ∧ (e.state = .suspended → (f e).state ≠ .suspended → W e.node .served)) : (s.modEntry i f).EntriesFit W := by
  have hentry {j : SlotIx} {e' : Entry} (he' : e' ∈ (s.modEntry i f).entry j) :
      ∃ e ∈ s.entry j, e'.node = e.node ∧ (e.state = .suspended → e'.state ≠ .suspended → W e.node .served) := by
    rw [State.modEntry_entry] at he'
    split at he'
    · next hj =>
      obtain ⟨e, he, rfl⟩ := Option.map_eq_some_iff.1 he'
      exact ⟨e, hj ▸ he, (hf e he).1, (hf e he).2.2⟩
    · exact ⟨e', he', rfl, fun h h' => absurd h h'⟩
  refine ⟨fun j e' he' hstate => ?_, fun l item hitem => ?_⟩
  · obtain ⟨e, he, hnode, hresumes⟩ := hentry he'
    rw [hnode]
    by_cases hsus : e.state = .suspended
    · exact hresumes hsus hstate
    · exact h.entries j e he hsus
  · obtain ⟨e, he, hlink, hstate⟩ := h.items l item hitem
    rw [State.modEntry_entry]
    split
    · next hj =>
      have he' : s.entry i = some e := hj ▸ he
      rw [he']
      exact ⟨f e, rfl, (hf e he').1 ▸ hlink, fun h => hstate ((hf e he').2.1 h)⟩
    · exact ⟨e, he, hlink, hstate⟩

/-- Items leave a poll queue. -/
theorem State.EntriesFit.modPolls {l : Link} {f : List PollItem → List PollItem} (h : s.EntriesFit W)
    (hf : ∀ item ∈ f (s.pollQueues.get l), ∃ e ∈ s.entry item.slot, nodeLink e.node = l ∧ e.state ≠ .suspended) :
    (s.modPolls l f).EntriesFit W := by
  refine ⟨h.entries, fun m item hitem => ?_⟩
  rw [State.modPolls_pollQueues, get_upd] at hitem
  split at hitem
  · next hm => exact hm ▸ hf item hitem
  · exact h.items m item hitem

theorem State.EntriesFit.modEntry_phase {i : SlotIx} {p : Entry → PollPhase} (h : s.EntriesFit W) :
    (s.modEntry i fun e => { e with phase := p e }).EntriesFit W :=
  h.modEntry fun _ _ => ⟨rfl, id, fun h h' => absurd h h'⟩

theorem State.EntriesFit.of_touch {t : State} (h : s.EntriesFit W) (hadm : s.Admits W) (ht : Touch s t) : t.EntriesFit W := by
  cases ht with
  | told => exact h.of_view rfl
  | kept i f _ hf => exact h.modEntry fun e he => ⟨(hf e he).node, (hf e he).suspends, fun h h' => (hadm _).1 ((hf e he).resumes h h')⟩
  | queued i =>
    rcases queuePoll_cases i s with heq | ⟨e, he, -, hpoll, heq⟩ <;> rw [heq]
    · exact h
    · refine State.EntriesFit.modEntry_phase (s := s.modPolls (nodeLink e.node) _) (h.modPolls fun item hitem => ?_)
      rcases List.mem_append.1 hitem with hitem | hitem
      · exact h.items _ item hitem
      · rw [List.mem_singleton.1 hitem]
        have hpoll : e.state ≠ .suspended := by
          simp only [Entry.pollable, Bool.and_eq_true, decide_eq_true_eq] at hpoll
          exact hpoll.1
        exact ⟨e, he, rfl, hpoll⟩

theorem State.Admits.of_nodes {t : State} (h : s.Admits W) (hn : t.nodes = s.nodes) : t.Admits W := by
  simpa only [State.Admits, State.presence, hn] using h

theorem State.EntriesFit.of_touches {t : State} (h : s.EntriesFit W) (hadm : s.Admits W) (ht : Touches s t) : t.EntriesFit W :=
  (ht.keeps (P := fun u => u.Admits W ∧ u.EntriesFit W) (fun _ _ ht h => ⟨h.1.of_nodes ht.nodes_links.1, h.2.of_touch h.1 ht⟩)
    ⟨hadm, h⟩).2

/-- The items of a slot stand in the queue of its entry's link. -/
theorem State.EntriesFit.slot_of_other (h : s.EntriesFit W) {i : SlotIx} {e : Entry} (he : s.entry i = some e) {l : Link}
    (hl : l ≠ nodeLink e.node) {item : PollItem} (hitem : item ∈ s.pollQueues.get l) : item.slot ≠ i := by
  rintro rfl
  obtain ⟨x, hx, hlink, -⟩ := h.items l item hitem
  obtain rfl : e = x := by simpa [he] using hx
  exact hl hlink.symm

theorem State.EntriesFit.dropPoll {i : SlotIx} {l : Link} (h : s.EntriesFit W) : (dropPoll i l s).EntriesFit W :=
  h.modPolls fun item hitem => h.items l item (List.mem_of_mem_filter hitem)

/-- With its items dropped, none of a slot's items is left. -/
theorem State.EntriesFit.dropPoll_items (h : s.EntriesFit W) {i : SlotIx} {e : Entry} (he : s.entry i = some e) {l : Link}
    {item : PollItem} (hitem : item ∈ (Machine.dropPoll i (nodeLink e.node) s).pollQueues.get l) : item.slot ≠ i := by
  rw [Machine.dropPoll, State.modPolls_pollQueues, get_upd] at hitem
  split at hitem
  · simpa using List.of_mem_filter hitem
  · next hl => exact h.slot_of_other he hl hitem

theorem State.EntriesFit.freeSlot {i : SlotIx} (h : s.EntriesFit W) : (freeSlot i s).EntriesFit W := by
  have hfree {u : State} (hu : u.EntriesFit W) (hitems : ∀ l, ∀ item ∈ u.pollQueues.get l, item.slot ≠ i) :
      (u.modSlot i fun sl => { generation := sl.generation + 1, entry := none }).EntriesFit W := by
    have hentry (j : SlotIx) (hj : j ≠ i) :
        (u.modSlot i fun sl => { generation := sl.generation + 1, entry := none }).entry j = u.entry j := by simp [State.entry, hj]
    refine ⟨fun j e he => ?_, fun l item hitem => ?_⟩
    · by_cases hj : j = i
      · simp [State.entry, hj] at he
      · exact hu.entries j e (hentry j hj ▸ he)
    · rw [hentry _ (hitems l item hitem)]
      exact hu.items l item hitem
  unfold Machine.freeSlot
  split
  · next he =>
    refine hfree h fun l item hitem hslot => ?_
    obtain ⟨x, hx, -⟩ := h.items l item hitem
    rw [hslot, he] at hx
    cases hx
  · next e he => exact hfree h.dropPoll fun l item => h.dropPoll_items he

theorem State.EntriesFit.suspendEntry {i : SlotIx} (h : s.EntriesFit W) : (suspendEntry i s).EntriesFit W := by
  unfold Machine.suspendEntry
  split
  · exact h
  · next e he =>
    split
    · exact h
    · refine ⟨fun j x hx hstate => ?_, fun l item hitem => ?_⟩
      · rw [State.modEntry_entry] at hx
        split at hx
        · obtain ⟨y, -, rfl⟩ := Option.map_eq_some_iff.1 hx
          exact absurd rfl hstate
        · exact h.entries j x hx hstate
      · rw [State.modEntry_entry_ne _ _ (h.dropPoll_items he hitem)]
        exact h.dropPoll.items l item hitem

theorem State.EntriesFit.emptyPollQueue {l : Link} (h : s.EntriesFit W) : (emptyPollQueue l s).EntriesFit W := by
  have hidle (items : List PollItem) (u : State) (hu : u.EntriesFit W) :
      (items.foldl (fun s item => s.modEntry item.slot fun e => { e with phase := .idle }) u).EntriesFit W := by
    induction items generalizing u with
    | nil => exact hu
    | cons item items ih => exact ih _ hu.modEntry_phase
  exact (hidle _ s h).modPolls (by simp)

theorem State.EntriesFit.grant {l : Link} {u : State} (hgrant : Grant l s u) (h : s.EntriesFit W) : u.EntriesFit W := by
  cases hgrant with
  | poll t item rest e hfree hup hidents hfetches hpolls he =>
    have hrest : (s.modPolls l fun _ => rest).EntriesFit W :=
      h.modPolls fun x hx => h.items l x (hpolls ▸ List.mem_cons_of_mem _ hx)
    exact (hrest.modEntry_phase (i := item.slot) (p := fun _ => .inFlight)).of_view rfl
  | dropped item rest hpolls he => exact h.modPolls fun x hx => h.items l x (hpolls ▸ List.mem_cons_of_mem _ hx)
  | _ => exact h.of_view rfl

theorem finishWrite_entryView (l : Link) (r : WriteRecord) (o : Reason) (s : State) :
    entryView (finishWrite l r o s) = entryView (tellEnding r o s) := by
  have hcompleted (h : Host) (u : State) : entryView (completeDrain h u) = entryView u :=
    completeDrain_read (g := entryView) (fun _ _ _ => rfl) h u
  rw [finishWrite_eq]
  dsimp only
  rw [apply_ite entryView, hcompleted, ite_self]
  split <;> rfl

theorem State.EntriesFit.finishWrite {l : Link} {r : WriteRecord} {o : Reason} (hadm : s.Admits W) (h : s.EntriesFit W) :
    (finishWrite l r o s).EntriesFit W := (h.of_touches hadm (tellEnding_touches r o s)).of_view (finishWrite_entryView ..)

theorem State.EntriesFit.of_act {port : Scope} {t : State} (hact : Act port false s t) (hadm : s.Admits W) (h : s.EntriesFit W) :
    t.EntriesFit W := by
  cases hact with
  | touch ht => exact h.of_touch hadm ht
  | aside hslots hpolls => exact h.of_view (by rw [entryView, hslots, hpolls])
  | retimed c p => exact State.EntriesFit.of_touches (s := s.retime c p) (h.of_view rfl) hadm (retimed_touches c p s)
  | created _ i e _ hfit =>
    have hentry (j : SlotIx) (hj : j ≠ i) : (s.putEntry i e).entry j = s.entry j := by simp [State.entry, State.putEntry, hj]
    refine ⟨fun j x hx hstate => ?_, fun l item hitem => ?_⟩
    · by_cases hj : j = i
      · obtain rfl : e = x := by simpa [hj] using hx
        exact (hadm _).1 (hfit.waits hstate)
      · exact h.entries j x (hentry j hj ▸ hx) hstate
    · obtain ⟨x, hx, hlink⟩ := h.items l item hitem
      have hslot : item.slot ≠ i := by
        rintro rfl
        rw [hfit.free] at hx
        cases hx
      exact ⟨x, (hentry _ hslot).symm ▸ hx, hlink⟩
  | freed _ i => exact h.freeSlot
  | suspended i => exact h.suspendEntry
  | emptied _ l => exact h.emptyPollQueue
  | granted l => exact h.grant (grantOne_grant l s)
  | lapsed g l r why seq => exact .finishWrite (hadm.of_nodes rfl) (h.of_view rfl)
  | finished l r o => exact h.finishWrite hadm
  | writeEnded l t r w o => exact .finishWrite (hadm.of_nodes rfl) (h.of_view rfl)
  | pollEnded l t r i e f _ _ he _ hf _ _ hallow =>
    refine State.EntriesFit.modEntry (s := withdraw l t s) (h.of_view rfl) fun x hx => ?_
    obtain rfl : e = x := by simpa [he] using (show x ∈ s.entry i from hx)
    exact ⟨hf.node, hallow.suspends, fun h h' => (hadm _).1 (hallow.resumes h h')⟩
  | noded hn | linked hn | identified hn => cases hn
  | _ => exact h.of_view rfl

/-! ## Write records -/

/-- One write queue changes. -/
theorem State.WritesFit.modWrites {l : Link} {f : WriteQueue → WriteQueue} (h : s.WritesFit W)
    (horder : ∀ r ∈ (f (s.writeQueues.get l)).order, r.Fits W l)
    (hreserved : ∀ r ∈ (f (s.writeQueues.get l)).reserved, r.FitsReserved W l) : (s.modWrites l f).WritesFit W := by
  refine ⟨fun m r hr => ?_, fun m r hr => ?_⟩ <;> rw [State.modWrites_writeQueues, get_upd] at hr <;> split at hr
  · next hm => exact hm ▸ horder r hr
  · exact h.order m r hr
  · next hm => exact hm ▸ hreserved r hr
  · exact h.reserved m r hr

theorem State.WritesFit.dropReservation {g : Host} {l : Link} (h : s.WritesFit W) : (dropReservation g l s).WritesFit W :=
  h.modWrites (h.order l) fun r hr => h.reserved l r (List.mem_of_mem_filter hr)

theorem State.WritesFit.finishWrite {l : Link} {r : WriteRecord} {o : Reason} (h : s.WritesFit W) : (finishWrite l r o s).WritesFit W := by
  have hfreed : (s.modWrites l (freeRecord r)).WritesFit W :=
    h.modWrites (fun x hx => h.order l x (List.mem_of_mem_erase hx)) (h.reserved l)
  exact hfreed.of_writes (finishWrite_writeQueues ..)

theorem State.WritesFit.of_act {port : Scope} {t : State} (hact : Act port false s t) (hadm : s.Admits W) (h : s.WritesFit W) :
    t.WritesFit W := by
  cases hact with
  | touch ht => exact h.of_writes ht.writeQueues
  | aside _ _ hwrites => exact h.of_writes hwrites
  | retimed => exact h.of_writes (retimed_writeQueues ..)
  | freed _ i => exact h.of_writes (freeSlot_writeQueues ..)
  | suspended i => exact h.of_writes (suspendEntry_writeQueues ..)
  | emptied _ l => exact h.of_writes (emptyPollQueue_writeQueues ..)
  | reserved g n _ _ _ hn =>
    refine h.modWrites (h.order _) fun r hr => ?_
    rcases List.mem_append.1 hr with hr | hr
    · exact h.reserved _ r hr
    · rw [List.mem_singleton.1 hr]
      exact ⟨rfl, fun _ => (hadm n).1 hn⟩
  | rereserved l f _ _ hlapse =>
    refine h.modWrites (h.order l) fun r hr => ?_
    obtain ⟨x, hx, rfl⟩ := List.mem_map.1 hr
    obtain ⟨hlink, hserved⟩ := h.reserved l x hx
    rw [WriteRecord.FitsReserved, (hlapse x).1]
    exact ⟨hlink, fun hno => hserved ((hlapse x).2 hno)⟩
  | dropped g l => exact h.dropReservation
  | taken g l r seq _ hr hno =>
    obtain ⟨hlink, hserved⟩ := h.reserved l r (State.reservation_mem hr).1
    refine h.dropReservation.modWrites (fun x hx => ?_) (h.dropReservation.reserved l)
    rcases List.mem_append.1 hx with hx | hx
    · exact h.dropReservation.order l x hx
    · rw [List.mem_singleton.1 hx]
      exact ⟨hlink, fun _ => hserved hno, by simp⟩
  | lapsed g l r why seq => exact h.dropReservation.finishWrite
  | finished l r o => exact h.finishWrite
  | restated l p st _ _ hst hpresence =>
    refine h.modWrites (fun x hx => ?_) (h.reserved l)
    obtain ⟨y, hy, rfl⟩ := List.mem_map.1 hx
    split
    · next hp =>
      have hnow := hpresence y hp
      refine ⟨(h.order l y hy).1, ?_⟩
      rcases hst with rfl | rfl
      · exact ⟨fun _ => (hadm _).1 (by simpa using hnow), by simp⟩
      · exact ⟨by simp, fun _ => (hadm _).2 (by simpa using hnow)⟩
    · exact h.order l y hy
  | clearedWrites g =>
    refine ⟨fun l r hr => ?_, fun l r hr => ?_⟩ <;> rw [clearWrites_writeQueues] at hr
    · obtain ⟨y, hy, rfl⟩ := List.mem_map.1 hr
      have hy := h.order l y (List.mem_of_mem_filter hy)
      split <;> exact hy
    · exact h.reserved l r hr
  | drained g c =>
    refine ⟨fun l r hr => ?_, fun l r hr => ?_⟩ <;> rw [State.modHost_writeQueues, markCovered_writeQueues] at hr
    · obtain ⟨y, hy, rfl⟩ := List.mem_map.1 hr
      have hy := h.order l y hy
      split <;> exact hy
    · exact h.reserved l r hr
  | granted l =>
    rcases (grantOne_grant l s).writeQueues with heq | ⟨r, hr, heq⟩
    · exact h.of_writes heq
    · have hsent : (sendWrite l r s).WritesFit W := by
        refine h.modWrites (fun x hx => ?_) (h.reserved l)
        have hmem := (offered_some hr).1
        rcases List.mem_cons.1 ((replace_perm _ hmem).mem_iff.1 hx) with rfl | hx
        · exact ⟨(h.order l r hmem).1, by simp, by simp⟩
        · exact h.order l x (List.mem_of_mem_erase hx)
      exact hsent.of_writes heq
  | writeEnded l t r w o => exact .finishWrite (h.of_writes rfl)
  | noded hn | linked hn | identified hn => cases hn
  | _ => exact h.of_writes rfl

/-- Changes that leave nodes and links keep all work admitted. -/
theorem State.TrafficFits.of_acts {port : Scope} {t : State} (hacts : Acts port false s t) (hadm : s.Admits W) (h : s.TrafficFits W) :
    t.TrafficFits W :=
  (hacts.keeps (P := fun u => u.Admits W ∧ u.TrafficFits W) (fun _ _ hact ⟨hadm, h⟩ =>
    ⟨hadm.of_nodes (Acts.nodes_links (.single hact)).1, .of_act hact hadm h, .of_act hact hadm h.entries, .of_act hact hadm h.writes⟩)
    ⟨hadm, h⟩).2

theorem quietLinesOk_acts {port : Scope} {t : State} (hacts : Acts port false s t) (h : s.quietLinesOk) : t.quietLinesOk :=
  hacts.keeps (fun _ _ => quietLinesOk_act) h

end

end Sys2Proof.Machine

/-!
# What endings leave (R80, R104, R118, R123, R124)

What the loops that end requests, fetches and writes, and that suspend entries, make of arbiters, write queues and slots.
-/

namespace Sys2Proof.Machine

set_option Elab.async false

/-! ## Arbiters -/

/-- The requests in flight that `p` accepts are gone, with their waiting copies. -/
def Arbiter.endTags (p : Request → Bool) (ts : List Tag) (a : Arbiter) : Arbiter :=
  { a with
    tags := Vector.ofFn fun t =>
      if t ∈ ts ∧ (a.tags.get t).request.any p = true then { a.tags.get t with request := none } else a.tags.get t
    txOrder := a.txOrder.filter fun t => !(decide (t ∈ ts) && (a.tags.get t).request.any p) }

theorem Arbiter.endTags_tags (p : Request → Bool) (ts : List Tag) (a : Arbiter) (t : Tag) :
    (a.endTags p ts).tags.get t
      = if t ∈ ts ∧ (a.tags.get t).request.any p = true then { a.tags.get t with request := none } else a.tags.get t := by
  simp [Arbiter.endTags]

theorem Arbiter.endTags_nil (p : Request → Bool) (a : Arbiter) : a.endTags p [] = a := by
  have htags : (a.endTags p []).tags = a.tags := Vector.ext fun k hk => by
    have h := a.endTags_tags p [] ⟨k, hk⟩
    simpa [Vector.get_eq_getElem] using h
  have horder : (a.endTags p []).txOrder = a.txOrder := by simp [Arbiter.endTags]
  calc a.endTags p [] = { a with tags := (a.endTags p []).tags, txOrder := (a.endTags p []).txOrder } := rfl
    _ = a := by rw [htags, horder]

/-- One tag is freed, if `p` accepts its request. -/
def Arbiter.endOne (p : Request → Bool) (t : Tag) (a : Arbiter) : Arbiter :=
  if (a.tags.get t).request.any p = true then
    { (a.modTag t fun tr => { tr with request := none }) with txOrder := a.txOrder.filter fun x => x ≠ t }
  else a

/-- One tag after another. -/
theorem Arbiter.endTags_cons (p : Request → Bool) (t : Tag) (ts : List Tag) (a : Arbiter) :
    a.endTags p (t :: ts) = (a.endOne p t).endTags p ts := by
  unfold Arbiter.endOne
  split
  · next ht =>
    have htags (u : Tag) : ((a.modTag t fun tr => { tr with request := none }).tags.get u)
        = if u = t then { a.tags.get u with request := none } else a.tags.get u := by
      rw [Arbiter.modTag, get_upd]
      split
      · next hu => rw [hu]
      · rfl
    simp only [Arbiter.endTags, htags, List.filter_filter]
    refine congrArg₂ (fun (tg : Vector TagRecord 8) (tx : List Tag) => ({ a with tags := tg, txOrder := tx } : Arbiter)) ?_ ?_
    · refine congrArg Vector.ofFn (funext fun u => ?_)
      by_cases hu : u = t
      · subst hu; simp [ht]
      · simp [hu]
    · refine List.filter_congr fun u _ => ?_
      by_cases hu : u = t
      · subst hu; simp [ht]
      · simp [hu]
  · next ht =>
    simp only [Arbiter.endTags]
    refine congrArg₂ (fun (tg : Vector TagRecord 8) (tx : List Tag) => ({ a with tags := tg, txOrder := tx } : Arbiter)) ?_ ?_
    · refine congrArg Vector.ofFn (funext fun u => ?_)
      by_cases hu : u = t
      · subst hu; simp [ht]
      · simp [hu]
    · refine List.filter_congr fun u _ => ?_
      by_cases hu : u = t
      · subst hu; simp [ht]
      · simp [hu]

theorem handOver_arbiters (l : Link) (r : Request) (o : Reason) (data : List Byte) (s : State) :
    (handOver l r o data s).arbiters = s.arbiters :=
  handOver_read (g := State.arbiters) (fun _ _ _ => rfl) (fun _ _ _ => rfl) (fun _ _ _ => rfl) (fun _ _ _ => rfl) ..

/-- The step of `endRequests` for one tag. -/
def endTag (l : Link) (p : Request → Bool) (why : Request → Reason) (t : Tag) (s : State) : State :=
  match s.request l t with
  | none => s
  | some r => if p r then handOver l r (why r) [] (withdraw l t s) else s

theorem endRequests_eq (l : Link) (p : Request → Bool) (why : Request → Reason) (s : State) :
    endRequests l p why s = (List.finRange 8).foldl (fun s t => endTag l p why t s) (keepBegunOf l p s) := rfl

theorem endTags_arbiters (l : Link) (p : Request → Bool) (why : Request → Reason) (ts : List Tag) (s : State) :
    (ts.foldl (fun s t => endTag l p why t s) s).arbiters = upd s.arbiters l (Arbiter.endTags p ts) := by
  induction ts generalizing s with
  | nil =>
    rw [List.foldl_nil, show Arbiter.endTags p [] = fun a => a from funext (Arbiter.endTags_nil p), upd_id]
  | cons t ts ih =>
    rw [List.foldl_cons, ih]
    have hkeep (hno : ((s.arbiters.get l).tags.get t).request.any p ≠ true) : s.arbiters = upd s.arbiters l (Arbiter.endOne p t) := by
      have hsame : (s.arbiters.get l).endOne p t = s.arbiters.get l := if_neg hno
      rw [upd_congr s.arbiters l (g := fun a => a) hsame, upd_id]
    have hone : (endTag l p why t s).arbiters = upd s.arbiters l (Arbiter.endOne p t) := by
      unfold endTag
      split
      · next hr => exact hkeep (by rw [show ((s.arbiters.get l).tags.get t).request = none from hr]; simp)
      · next r hr =>
        have hr : ((s.arbiters.get l).tags.get t).request = some r := hr
        split
        · next hp =>
          rw [handOver_arbiters]
          rw [withdraw, State.modArbiter_arbiters]
          refine upd_congr s.arbiters l ?_
          simp [Arbiter.endOne, hr, hp]
        · next hp => exact hkeep (by simp [hr, hp])
    rw [hone, upd_upd]
    exact congrArg (upd s.arbiters l) (funext fun a => (Arbiter.endTags_cons p t ts a).symm)

/-- R97: only the frame being sent is touched. -/
theorem keepBegunOf_line (l : Link) (p : Request → Bool) (s : State) :
    ∃ line, (keepBegunOf l p s).arbiters = upd s.arbiters l (fun a => { a with onLine := line })
      ∧ (line = (s.arbiters.get l).onLine
        ∨ ∃ g r rest, (s.arbiters.get l).onLine = none ∧ (s.arbiters.get l).txOrder = g :: rest ∧ s.request l g = some r ∧ p r = true
          ∧ line = some (s.copyBytes l g r)) := by
  have hsame : s.arbiters = upd s.arbiters l fun a => { a with onLine := (s.arbiters.get l).onLine } := by
    rw [upd_congr s.arbiters l (g := fun a => a) rfl, upd_id]
  rcases keepBegunOf_cases l p s with h | ⟨t, rest, r, htx, hr, hp, h⟩ <;> rw [h]
  · exact ⟨_, hsame, .inl rfl⟩
  · rcases keepBegun_cases l t r s with ⟨-, h⟩ | ⟨hbegun, h | h⟩ <;> rw [h]
    · exact ⟨_, hsame, .inl rfl⟩
    · exact ⟨_, hsame, .inl rfl⟩
    · simp only [Arbiter.mayHaveBegun, Bool.and_eq_true, Option.isNone_iff_eq_none] at hbegun
      exact ⟨some (s.copyBytes l t r), rfl, .inr ⟨t, r, rest, hbegun.1, htx, hr, hp, rfl⟩⟩

/-- R123, R124: what the ended requests leave. -/
theorem endRequests_arbiters (l : Link) (p : Request → Bool) (why : Request → Reason) (s : State) :
    ∃ line, (endRequests l p why s).arbiters
        = upd s.arbiters l (fun a => { a.endTags p (List.finRange 8) with onLine := line })
      ∧ (line = (s.arbiters.get l).onLine
        ∨ ∃ g r rest, (s.arbiters.get l).onLine = none ∧ (s.arbiters.get l).txOrder = g :: rest ∧ s.request l g = some r ∧ p r = true
          ∧ line = some (s.copyBytes l g r)) := by
  obtain ⟨line, hkept, hline⟩ := keepBegunOf_line l p s
  refine ⟨line, ?_, hline⟩
  rw [endRequests_eq, endTags_arbiters, hkept, upd_upd]
  rfl

theorem endRequests_request (l : Link) (p : Request → Bool) (why : Request → Reason) (s : State) (m : Link) (t : Tag) :
    (endRequests l p why s).request m t = if m = l then (s.request m t).filter (fun r => !p r) else s.request m t := by
  obtain ⟨line, h, -⟩ := endRequests_arbiters l p why s
  simp only [State.request, h, get_upd]
  split
  · next hm =>
    subst hm
    simp only [Arbiter.endTags_tags, List.mem_finRange, true_and]
    cases hr : ((s.arbiters.get m).tags.get t).request with
    | none => simp [hr]
    | some r => by_cases hp : p r = true <;> simp [hr, hp, Option.filter]
  · rfl

theorem finishFetch_arbiters (h : Host) (tk : Byte) (rep : Bool) (n : Node) (a : Word16) (len : Nat) (o : Reason) (data : List Byte)
    (s : State) : (finishFetch h tk rep n a len o data s).arbiters = s.arbiters := by
  unfold finishFetch
  split <;> rfl

/-- R123, R128: the pending fetches that ended are gone. -/
theorem endFetches_arbiters (l : Link) (p : FetchItem → Bool) (why : Reason) (s : State) :
    (endFetches l p why s).arbiters = upd s.arbiters l fun a => { a with fetches := a.fetches.filter fun f => !p f } := by
  have hfold (xs : List FetchItem) (u : State) :
      (xs.foldl (fun s f => finishFetch f.host f.ticket f.reported f.node f.address f.length why [] s) u).arbiters = u.arbiters := by
    induction xs generalizing u with
    | nil => rfl
    | cons x xs ih => rw [List.foldl_cons, ih, finishFetch_arbiters]
  unfold endFetches
  rw [hfold]
  rfl

/-! ## Write queues -/

theorem foldl_erase_filter {α : Type} [BEq α] [LawfulBEq α] (p : α → Bool) (xs : List α) :
    (xs.filter p).foldl List.erase xs = xs.filter fun x => !p x := by
  have hcons (x : α) (hx : p x = false) (ys zs : List α) (hys : ∀ y ∈ ys, p y = true) :
      ys.foldl List.erase (x :: zs) = x :: ys.foldl List.erase zs := by
    induction ys generalizing zs with
    | nil => rfl
    | cons y ys ih =>
      have hne : ¬ (x == y) = true := fun h => by
        rw [eq_of_beq h, hys y List.mem_cons_self] at hx
        cases hx
      rw [List.foldl_cons, List.foldl_cons, List.erase_cons_tail hne, ih _ fun y hy => hys y (List.mem_cons_of_mem _ hy)]
  induction xs with
  | nil => rfl
  | cons x xs ih =>
    cases hx : p x with
    | true => simp only [List.filter_cons, hx, if_true, List.foldl_cons, List.erase_cons_head, Bool.not_true, Bool.false_eq_true,
        if_false, ih]
    | false =>
      simp only [List.filter_cons, hx, Bool.false_eq_true, if_false, Bool.not_false, if_true]
      rw [hcons x hx _ _ fun y hy => (List.mem_filter.1 hy).2, ih]

/-- The records of `rs` leave link `l`'s queue one after another. -/
theorem foldl_finishWrite_writeQueues (l : Link) (why : Reason) (rs : List WriteRecord) (s : State) :
    (rs.foldl (fun s r => finishWrite l r why s) s).writeQueues
      = upd s.writeQueues l fun q => { q with order := rs.foldl List.erase q.order } := by
  induction rs generalizing s with
  | nil => rw [List.foldl_nil]; exact (upd_id ..).symm
  | cons r rs ih =>
    rw [List.foldl_cons, ih, finishWrite_writeQueues, State.modWrites_writeQueues, upd_upd]
    rfl

/-- R56, R59, R60: the records that failed are gone, and the others keep their places. -/
theorem failWrites_writeQueues (l : Link) (p : WriteRecord → Bool) (why : Reason) (s : State) :
    (failWrites l p why s).writeQueues = upd s.writeQueues l fun q => { q with order := q.order.filter fun r => !p r } := by
  rw [failWrites, foldl_finishWrite_writeQueues]
  exact upd_congr _ _ (by rw [foldl_erase_filter])

/-- Records leave the queues, and the reservations stay. -/
structure State.Shrinks (s t : State) : Prop where
  order : ∀ l, (t.writeQueues.get l).order.Sublist (s.writeQueues.get l).order
  reserved : ∀ l, (t.writeQueues.get l).reserved = (s.writeQueues.get l).reserved

theorem State.Shrinks.of_eq {s t : State} (h : t.writeQueues = s.writeQueues) : s.Shrinks t :=
  ⟨fun l => by rw [h], fun l => by rw [h]⟩

theorem State.Shrinks.trans {s t u : State} (h : s.Shrinks t) (h' : t.Shrinks u) : s.Shrinks u :=
  ⟨fun l => (h'.order l).trans (h.order l), fun l => (h'.reserved l).trans (h.reserved l)⟩

theorem finishWrite_shrinks (l : Link) (r : WriteRecord) (o : Reason) (s : State) : s.Shrinks (finishWrite l r o s) := by
  refine ⟨fun m => ?_, fun m => ?_⟩ <;> rw [finishWrite_writeQueues, State.modWrites_writeQueues, get_upd] <;> split
  · next hm => exact hm ▸ List.erase_sublist
  · exact .refl _
  · next hm => rw [hm]; rfl
  · rfl

theorem finishFetch_writeQueues (h : Host) (tk : Byte) (rep : Bool) (n : Node) (a : Word16) (len : Nat) (o : Reason) (data : List Byte)
    (s : State) : (finishFetch h tk rep n a len o data s).writeQueues = s.writeQueues := by
  unfold finishFetch
  split <;> rfl

theorem endTag_shrinks (l : Link) (p : Request → Bool) (why : Request → Reason) (t : Tag) (s : State) :
    s.Shrinks (endTag l p why t s) := by
  have hwithdraw : s.Shrinks (withdraw l t s) := .of_eq rfl
  unfold endTag
  split
  · exact .of_eq rfl
  · split
    · refine hwithdraw.trans ?_
      unfold handOver
      split
      · exact .of_eq (applyPollEnding_read (g := State.writeQueues) (fun _ _ _ => rfl) (fun _ _ _ => rfl) (fun _ _ _ => rfl) ..)
      · exact .of_eq (finishFetch_writeQueues ..)
      · split
        · exact .of_eq rfl
        · exact finishWrite_shrinks ..
      · exact .of_eq rfl
    · exact .of_eq rfl

theorem endRequests_shrinks (l : Link) (p : Request → Bool) (why : Request → Reason) (s : State) :
    s.Shrinks (endRequests l p why s) := by
  have hfold (ts : List Tag) (u : State) : u.Shrinks (ts.foldl (fun s t => endTag l p why t s) u) := by
    induction ts generalizing u with
    | nil => exact .of_eq rfl
    | cons t ts ih => exact (endTag_shrinks l p why t u).trans (ih _)
  exact State.Shrinks.trans (.of_eq (keepBegunOf_read (g := State.writeQueues) (fun _ _ _ => rfl) (fun _ _ => rfl) ..)) (hfold ..)

theorem endFetches_writeQueues (l : Link) (p : FetchItem → Bool) (why : Reason) (s : State) :
    (endFetches l p why s).writeQueues = s.writeQueues :=
  endFetches_read (g := State.writeQueues) (fun _ _ _ => rfl) (fun _ _ _ => rfl) ..

/-! ## Entries -/

/-- R25: an entry that is suspended. -/
def Entry.suspend (e : Entry) : Entry :=
  if e.state = .suspended then e
  else { e with state := .suspended, repoll := false, phase := if e.phase = .queued then .idle else e.phase }

theorem Entry.suspend_node (e : Entry) : e.suspend.node = e.node := by unfold Entry.suspend; split <;> rfl

theorem Entry.suspend_state (e : Entry) : e.suspend.state = .suspended := by
  unfold Entry.suspend
  split
  · next h => exact h
  · rfl

theorem SlotEffect.suspendEntry {s : State} {i : SlotIx} {e : Entry} (he : s.entry i = some e) :
    SlotEffect s (suspendEntry i s) i { s.slots.get i with entry := some e.suspend } (fun _ hs => hs)
      (fun l q => if e.state ≠ .suspended ∧ nodeLink e.node = l then q.filter fun item => item.slot ≠ i else q) := by
  simp only [Machine.suspendEntry, he, Entry.suspend]
  by_cases hstate : e.state = .suspended
  · simp only [hstate, if_true, ne_eq, not_true_eq_false, false_and, if_false]
    exact .same he
  · simp only [hstate, if_false, ne_eq, not_false_eq_true, true_and]
    have hslot : ((Machine.dropPoll i (nodeLink e.node) s).slots.get i).entry = some e := he
    have hdrop : SlotEffect s (Machine.dropPoll i (nodeLink e.node) s) i (s.slots.get i) (fun _ hs => hs)
        (fun l q => if nodeLink e.node = l then q.filter fun item => item.slot ≠ i else q) := by
      refine ⟨rfl, fun _ _ => rfl, fun _ => rfl, fun l => ?_, rfl⟩
      rw [Machine.dropPoll, State.modPolls_pollQueues, get_upd]
      simp only [eq_comm (a := l)]
      split
      · next hl => rw [hl]
      · rfl
    refine (hdrop.trans (.modEntry hslot _)).congr rfl (fun _ _ => rfl) fun _ _ => rfl

/-- R25, R104: the entries that `p` accepts are suspended, with their polls gone; the others stay. -/
theorem forEntries_suspendEntry (p : Entry → Bool) (s : State) :
    SlotsEffect s (forEntries p suspendEntry s)
      (fun i => { s.slots.get i with entry := (s.entry i).map fun e => if p e then e.suspend else e })
      (fun _ _ hs => hs)
      (fun i l q => if (s.entry i).any (fun e => p e && decide (e.state ≠ .suspended ∧ nodeLink e.node = l)) = true then
        q.filter fun item => item.slot ≠ i else q) := by
  refine forEntries_effect (fun i u _ hslot hno => ?_) fun i u e _ hslot he hp => ?_
  · have hmap : (s.entry i).map (fun e => if p e then e.suspend else e) = s.entry i := by
      cases he : s.entry i with
      | none => rfl
      | some e => simp [hno e he]
    have hany (l : Link) : (s.entry i).any (fun e => p e && decide (e.state ≠ .suspended ∧ nodeLink e.node = l)) = false := by
      cases he : s.entry i with
      | none => rfl
      | some e => simp [hno e he]
    rw [hmap]
    exact (SlotEffect.refl u i).congr (by rw [hslot]; rfl) (fun _ _ => rfl) fun l q => by rw [hany l]; rfl
  · refine (SlotEffect.suspendEntry (s := u) (i := i) (e := e) (by rw [State.entry, hslot]; exact he)).congr
      (by rw [hslot, he, Option.map_some, if_pos hp]) (fun _ _ => rfl) fun l q => ?_
    simp [he, hp]

theorem forEntries_suspendEntry_entry (p : Entry → Bool) (s : State) (i : SlotIx) :
    (forEntries p suspendEntry s).entry i = (s.entry i).map fun e => if p e then e.suspend else e := by
  rw [State.entry, (forEntries_suspendEntry p s).slots]

end Sys2Proof.Machine

/-!
# Traffic follows presence (R79, R80, R82, R91, R104)
-/

namespace Sys2Proof.Machine

set_option Elab.async false

/-! ## The work there is -/

/-- Work of a kind that a node has. -/
inductive State.HasWork (s : State) : Node → Work → Prop
  | request {l : Link} {t : Tag} {r : Request} (hr : s.request l t = some r) : s.HasWork r.node r.work
  | ident {l : Link} {n : Node} (hn : n ∈ (s.arbiters.get l).idents) : s.HasWork n .ident
  | fetch {l : Link} {f : FetchItem} (hf : f ∈ (s.arbiters.get l).fetches) : s.HasWork f.node .served
  | entry {i : SlotIx} {e : Entry} (he : s.entry i = some e) (hstate : e.state ≠ .suspended) : s.HasWork e.node .served
  | queued {l : Link} {r : WriteRecord} (hr : r ∈ (s.writeQueues.get l).order) (hstate : r.state = .queued) : s.HasWork r.node .served
  | held {l : Link} {r : WriteRecord} (hr : r ∈ (s.writeQueues.get l).order) (hstate : r.state = .held) : s.HasWork r.node .held
  | reserved {l : Link} {r : WriteRecord} (hr : r ∈ (s.writeQueues.get l).reserved) (hno : r.lapse = none) : s.HasWork r.node .served

section
variable {W V : Node → Work → Prop} {s t : State}

theorem State.TrafficFits.admits (h : s.TrafficFits W) {n : Node} {k : Work} (hk : s.HasWork n k) : W n k := by
  cases hk with
  | request hr => exact (h.lines.requests _ _ _ hr).2
  | ident hn => exact (h.lines.idents _ _ hn).2
  | fetch hf => exact (h.lines.fetches _ _ hf).2
  | entry he hstate => exact h.entries.entries _ _ he hstate
  | queued hr hstate => exact (h.writes.order _ _ hr).2.1 hstate
  | held hr hstate => exact (h.writes.order _ _ hr).2.2 hstate
  | reserved hr hno => exact (h.writes.reserved _ _ hr).2 hno

/-- All the work there is may be admitted elsewhere. -/
theorem State.TrafficFits.restrict (h : s.TrafficFits W) (hV : ∀ n k, s.HasWork n k → V n k) : s.TrafficFits V :=
  ⟨⟨fun l t r hr => ⟨(h.lines.requests l t r hr).1, hV _ _ (.request hr)⟩, h.lines.nodup,
      fun l n hn => ⟨(h.lines.idents l n hn).1, hV _ _ (.ident hn)⟩, h.lines.single,
      fun l f hf => ⟨(h.lines.fetches l f hf).1, hV _ _ (.fetch hf)⟩⟩,
    ⟨fun _ _ he hstate => hV _ _ (.entry he hstate), h.entries.items⟩,
    ⟨fun l r hr => ⟨(h.writes.order l r hr).1, fun hq => hV _ _ (.queued hr hq), fun hh => hV _ _ (.held hr hh)⟩,
      fun l r hr => ⟨(h.writes.reserved l r hr).1, fun hno => hV _ _ (.reserved hr hno)⟩⟩⟩

theorem State.TrafficFits.mono (h : s.TrafficFits W) (hV : ∀ n k, W n k → V n k) : s.TrafficFits V :=
  h.restrict fun _ _ hk => hV _ _ (h.admits hk)

theorem State.TrafficFits.of_same (h : s.TrafficFits W) (ha : t.arbiters = s.arbiters) (hv : entryView t = entryView s)
    (hw : t.writeQueues = s.writeQueues) : t.TrafficFits W := ⟨h.lines.of_arbiters ha, h.entries.of_view hv, h.writes.of_writes hw⟩

/-- The work, and the lines out of service. -/
structure State.Flows (s : State) (W : Node → Work → Prop) : Prop where
  fits : s.TrafficFits W
  quiet : s.quietLinesOk

theorem State.trafficOk_iff_flows (s : State) : s.trafficOk ↔ s.quietNodesOk ∧ s.Flows s.usual :=
  s.trafficOk_iff.trans (and_congr_right fun _ => ⟨fun h => ⟨h.2, h.1⟩, fun h => ⟨h.2, h.1⟩⟩)

theorem State.Flows.of_acts {port : Scope} (h : s.Flows W) (hadm : s.Admits W) (hacts : Acts port false s t) : t.Flows W :=
  ⟨h.fits.of_acts hacts hadm, quietLinesOk_acts hacts h.quiet⟩

theorem State.Flows.modNode (h : s.Flows W) (n : Node) (f : NodeRecord → NodeRecord) : (s.modNode n f).Flows W :=
  ⟨h.fits.of_same rfl rfl rfl, quietLinesOk_of_same rfl rfl h.quiet⟩

theorem State.Flows.restrict (h : s.Flows W) (hV : ∀ n k, s.HasWork n k → V n k) : s.Flows V := ⟨h.fits.restrict hV, h.quiet⟩

theorem State.Flows.mono (h : s.Flows W) (hV : ∀ n k, W n k → V n k) : s.Flows V := ⟨h.fits.mono hV, h.quiet⟩

theorem State.usual_of_nodes (h : t.nodes = s.nodes) : t.usual = s.usual := by
  funext n k
  simp only [State.usual, State.presence, h]

theorem State.admits_usual (s : State) : s.Admits s.usual := fun _ => ⟨fun h => h, fun h => h⟩

/-- Work admitted besides: kind `k` for node `n`. -/
def alsoFor (W : Node → Work → Prop) (n : Node) (k : Work) : Node → Work → Prop := fun m j => W m j ∨ (m = n ∧ j = k)

/-! ## IDENTs are handed over -/

theorem State.Flows.issueIdent {n : Node} (h : s.Flows W) (hno : ¬ s.HasWork n .ident) : (issueIdent n s).Flows (alsoFor W n .ident) := by
  have hlines := h.fits.lines
  have hreq (m : Link) (t : Tag) : (Machine.issueIdent n s).request m t = s.request m t :=
    modArbiter_request_of_tags (f := fun a => { a with idents := a.idents ++ [n] }) (fun _ => rfl) s m t
  have hids (m : Link) : ((Machine.issueIdent n s).arbiters.get m).idents
      = if m = nodeLink n then (s.arbiters.get m).idents ++ [n] else (s.arbiters.get m).idents := by
    rw [Machine.issueIdent, State.modArbiter_arbiters, get_upd]
    split
    · next hm => rw [hm]
    · rfl
  have hmem {m : Link} {x : Node} (hx : x ∈ ((Machine.issueIdent n s).arbiters.get m).idents) :
      x ∈ (s.arbiters.get m).idents ∨ (x = n ∧ m = nodeLink n) := by
    rw [hids] at hx
    split at hx
    · next hm => exact (List.mem_append.1 hx).imp_right fun hx => ⟨List.mem_singleton.1 hx, hm⟩
    · exact .inl hx
  have hfetches (m : Link) : ((Machine.issueIdent n s).arbiters.get m).fetches = (s.arbiters.get m).fetches := by
    rw [Machine.issueIdent, State.modArbiter_arbiters, get_upd]
    split
    · next hm => rw [hm]
    · rfl
  refine ⟨⟨⟨fun l t r hr => ?_, fun l => ?_, fun l x hx => ?_, fun l t r hr hi => ?_, fun l f hf => ?_⟩, ?_, ?_⟩, ?_⟩
  · exact (hlines.requests l t r (hreq l t ▸ hr)).imp_right .inl
  · rw [hids]
    split
    · refine List.nodup_append.2 ⟨hlines.nodup l, List.nodup_singleton n, fun x hx y hy => ?_⟩
      rw [List.mem_singleton.1 hy]
      rintro rfl
      exact hno (.ident hx)
    · exact hlines.nodup l
  · rcases hmem hx with hx | ⟨rfl, rfl⟩
    · exact (hlines.idents l x hx).imp_right .inl
    · exact ⟨rfl, .inr ⟨rfl, rfl⟩⟩
  · have hr := hreq l t ▸ hr
    refine ⟨fun hx => ?_, fun u hu x hx => (hlines.single l t r hr hi).2 u hu x (hreq l u ▸ hx)⟩
    rcases hmem hx with hx | ⟨hx, -⟩
    · exact (hlines.single l t r hr hi).1 hx
    · have hwork : r.work = .ident := if_pos hi
      exact hno (hwork ▸ hx ▸ .request hr)
  · exact (hlines.fetches l f (hfetches l ▸ hf)).imp_right .inl
  · exact ((h.fits.mono (V := alsoFor W n .ident) fun _ _ => .inl).entries).of_view rfl
  · exact ((h.fits.mono (V := alsoFor W n .ident) fun _ _ => .inl).writes).of_writes rfl
  · exact quietLinesOk_modArbiter (.inr (.inr fun h h' => ⟨h, h'⟩)) h.quiet

/-! ## Rules in either order -/

/-- What one of two owners sees to, and the other leaves. -/
theorem eitherOrder_of_first {P : State → Prop} (b : Bool) {f k : State → State} (hf : ∀ u, P (f u)) (hk : ∀ u, P u → P (k u)) (s : State) :
    P (eitherOrder b f k s) := by
  obtain ⟨c, h | h⟩ := eitherOrder_cases b f k s <;> rw [h]
  · exact hk _ (hf _)
  · exact hf _

theorem eitherOrder_of_second {P : State → Prop} (b : Bool) {f k : State → State} (hk : ∀ u, P (k u)) (hf : ∀ u, P u → P (f u)) (s : State) :
    P (eitherOrder b f k s) := by
  obtain ⟨c, h | h⟩ := eitherOrder_cases b f k s <;> rw [h]
  · exact hk _
  · exact hf _ (hk _)

/-! ## A node that leaves PRESENT -/

/-- No request of the nodes `p` but IDENTs is in flight on link `l`, and no fetch of theirs is pending. -/
def State.LinesEnded (p : Node → Prop) (l : Link) (s : State) : Prop :=
  (∀ t, ∀ r ∈ s.request l t, p r.node → r.isIdent = true) ∧ ∀ f ∈ (s.arbiters.get l).fetches, ¬ p f.node

theorem State.LinesEnded.of_arbiters {p : Node → Prop} {l : Link} (h : s.LinesEnded p l) (ha : t.arbiters = s.arbiters) :
    t.LinesEnded p l := by
  simpa only [State.LinesEnded, State.request, ha] using h

/-- None of the writes of the nodes `p` on link `l` is in state `st`, and all their reservations have lapsed. -/
def State.WritesEnded (p : Node → Prop) (st : WriteState → Prop) (l : Link) (s : State) : Prop :=
  (∀ r ∈ (s.writeQueues.get l).order, p r.node → ¬ st r.state) ∧ ∀ r ∈ (s.writeQueues.get l).reserved, p r.node → r.lapse ≠ none

theorem State.WritesEnded.of_shrinks {p : Node → Prop} {st : WriteState → Prop} {l : Link} (h : s.WritesEnded p st l) (ht : s.Shrinks t) :
    t.WritesEnded p st l :=
  ⟨fun r hr => h.1 r ((ht.order l).subset hr), fun r hr => h.2 r (ht.reserved l ▸ hr)⟩

theorem endNodeRequests_ended (n : Node) (why : Reason) (s : State) :
    (endNodeRequests n why s).LinesEnded (fun m => m = n) (nodeLink n) := by
  unfold endNodeRequests
  have hreq (t : Tag) := endRequests_request (nodeLink n) (fun r => decide (r.node = n) && !r.isIdent) (leavingReason why) s (nodeLink n) t
  generalize endRequests (nodeLink n) _ _ s = u at hreq
  refine ⟨fun t r hr hn => ?_, fun f hf => ?_⟩
  · have hr : u.request (nodeLink n) t = some r := by
      have ha := endFetches_arbiters (nodeLink n) (fun f => decide (f.node = n)) (if why = .quarantined then .nodeLost else why) u
      simp only [State.request, ha, get_upd_self] at hr
      exact hr
    rw [hreq, if_pos rfl, Option.filter_eq_some_iff] at hr
    simpa [hn] using hr.2
  · rw [endFetches_arbiters, get_upd_self] at hf
    simpa using List.of_mem_filter hf

theorem lapseReservations_reserved (l : Link) (p : WriteRecord → Bool) (why : Reason) (s : State) {r : WriteRecord}
    (hr : r ∈ ((lapseReservations l p why s).writeQueues.get l).reserved)
    (hp : ∀ x : WriteRecord, x.node = r.node → p x = true) : r.lapse ≠ none := by
  rw [lapseReservations, State.modWrites_writeQueues, get_upd_self] at hr
  obtain ⟨x, -, rfl⟩ := List.mem_map.1 hr
  have hnode : (if (p x && x.lapse.isNone) = true then { x with lapse := some why } else x).node = x.node := by split <;> rfl
  rw [hp x hnode.symm, Bool.true_and]
  split
  · simp
  · next h => simpa using h

theorem leaveNodeWrites_ended (n : Node) (why : Reason) (s : State) :
    (leaveNodeWrites n why s).WritesEnded (fun m => m = n) (fun st => st = .queued) (nodeLink n) := by
  unfold leaveNodeWrites
  dsimp only
  refine ⟨fun r hr hn hstate => ?_, fun r hr hn => lapseReservations_reserved _ _ _ _ hr fun x hx => by simp [hx, hn]⟩
  rw [lapseReservations, State.modWrites_writeQueues, get_upd_self] at hr
  dsimp only at hr
  split at hr
  · rw [holdWrites, State.modWrites_writeQueues, get_upd_self] at hr
    obtain ⟨x, -, rfl⟩ := List.mem_map.1 hr
    split at hstate
    · cases hstate
    · next h => exact h ⟨by simpa [h] using hn, hstate⟩
  · rw [failNodeWrites, failWrites_writeQueues, get_upd_self] at hr
    simpa [hn, hstate] using List.of_mem_filter hr

theorem endNodeRequests_shrinks (n : Node) (why : Reason) (s : State) : s.Shrinks (endNodeRequests n why s) :=
  (endRequests_shrinks ..).trans (.of_eq (endFetches_writeQueues ..))

theorem leaveNodeWrites_arbiters (n : Node) (why : Reason) (s : State) : (leaveNodeWrites n why s).arbiters = s.arbiters :=
  leaveNodeWrites_read (g := State.arbiters) (fun _ _ _ => rfl) (fun _ _ _ => rfl) (fun _ _ _ => rfl) (fun _ _ _ => rfl) ..

theorem forEntries_suspendEntry_aside (p : Entry → Bool) (s : State) : s.SameAside (forEntries p suspendEntry s) :=
  (forEntries_suspendEntry p s).aside

/-- R25: the entries of the nodes that were meant are SUSPENDED. -/
theorem forEntries_suspendEntry_suspended (p : Entry → Bool) (s : State) {i : SlotIx} {e : Entry}
    (he : (forEntries p suspendEntry s).entry i = some e) (hp : ∀ x : Entry, x.node = e.node → p x = true) : e.state = .suspended := by
  rw [forEntries_suspendEntry_entry] at he
  obtain ⟨x, -, rfl⟩ := Option.map_eq_some_iff.1 he
  have hnode : (if p x = true then x.suspend else x).node = x.node := by
    split
    · exact x.suspend_node
    · rfl
  rw [if_pos (hp x hnode.symm)]
  exact x.suspend_state

/-- R80: no work that waits for the node to be PRESENT is left. -/
theorem leavePresent_ended {n : Node} {p : Presence} {cause : Option IdentCause} {why : Reason} {u : State}
    (ht : (leavePresent n p cause why u).TrafficFits W) : ¬ (leavePresent n p cause why u).HasWork n .served := by
  let v := u.modNode n fun r => { r with presence := p, cause := cause, timeouts := 0 }
  let w := eitherOrder (v.leavingBoth n why) (endNodeRequests n why) (leaveNodeWrites n why) v
  have hw : leavePresent n p cause why u = suspendNode n w := rfl
  have haside := forEntries_suspendEntry_aside (fun e => decide (e.node = n)) w
  have hlines : (suspendNode n w).LinesEnded (fun m => m = n) (nodeLink n) :=
    State.LinesEnded.of_arbiters (eitherOrder_of_first _ (endNodeRequests_ended n why)
      (fun x hx => hx.of_arbiters (leaveNodeWrites_arbiters n why x)) v) (haside.read (g := State.arbiters) fun _ _ _ _ => rfl)
  have hwrites : (suspendNode n w).WritesEnded (fun m => m = n) (fun st => st = .queued) (nodeLink n) :=
    State.WritesEnded.of_shrinks (eitherOrder_of_second _ (leaveNodeWrites_ended n why)
      (fun x hx => hx.of_shrinks (endNodeRequests_shrinks n why x)) v) (.of_eq (haside.read (g := State.writeQueues) fun _ _ _ _ => rfl))
  rw [hw] at ht ⊢
  generalize hk : Work.served = k
  intro hwork
  cases hwork with
  | @request l t r hr =>
    have hl : nodeLink r.node = l := (ht.lines.requests l t r hr).1
    subst hl
    simp [Request.work, hlines.1 t r hr rfl] at hk
  | ident => cases hk
  | @fetch l f hf =>
    have hl : nodeLink f.node = l := (ht.lines.fetches l f hf).1
    subst hl
    exact hlines.2 f hf rfl
  | @entry i e he hstate =>
    exact hstate (forEntries_suspendEntry_suspended _ w he fun x hx => by simp [hx])
  | @queued l r hr hstate =>
    have hl : nodeLink r.node = l := (ht.writes.order l r hr).1
    subst hl
    exact hwrites.1 r hr rfl hstate
  | held => cases hk
  | @reserved l r hr hno =>
    have hl : nodeLink r.node = l := (ht.writes.reserved l r hr).1
    subst hl
    exact hwrites.2 r hr rfl hno

/-! ## The units -/

theorem presence_of_nodes {n m : Node} {f : NodeRecord → NodeRecord} (h : t.nodes = upd s.nodes n f) :
    t.presence m = if m = n then (f (s.nodes.get n)).presence else s.presence m := by
  rw [State.presence, h, get_upd]
  split <;> rfl

/-- The work left where node `n` has left PRESENT for `p`: HELD writes of a node that is identified again, and that of other nodes. -/
def leftWork (s : State) (n : Node) (p : Presence) (m : Node) (k : Work) : Prop :=
  if m = n then k = .held ∧ p = .identifying else s.usual m k

theorem leavePresent_presence_of {n : Node} {p : Presence} {cause : Option IdentCause} (why : Reason) {f : NodeRecord → NodeRecord}
    (hnodes : u.nodes = upd s.nodes n f) (m : Node) : (leavePresent n p cause why u).presence m = if m = n then p else s.presence m := by
  rw [presence_of_nodes (leavePresent_nodes n p cause why u)]
  split
  · rfl
  · next hm => rw [presence_of_nodes hnodes, if_neg hm]

/-- R80: a node that leaves PRESENT leaves no work behind that needs it PRESENT. -/
theorem leavePresent_flows {n : Node} {p : Presence} {cause : Option IdentCause} {why : Reason} {f : NodeRecord → NodeRecord}
    (hnodes : u.nodes = upd s.nodes n f) (hu : u.Flows s.usual) (hn : s.presence n = .present) (hp : p ≠ .present) (hwhy : why ≠ .ok)
    (hheld : why = .nodeRestarted → p = .identifying) : (leavePresent n p cause why u).Flows (leftWork s n p) := by
  let v := u.modNode n fun r => { r with presence := p, cause := cause, timeouts := 0 }
  have hv (m : Node) : v.presence m = if m = n then p else s.presence m := by
    rw [presence_of_nodes (s := u) (f := fun r => { r with presence := p, cause := cause, timeouts := 0 }) rfl]
    split
    · rfl
    · next hm => rw [presence_of_nodes hnodes, if_neg hm]
  let V := fun m k => s.usual m k ∨ (m = n ∧ k = .held ∧ p = .identifying)
  have hadm : v.Admits V := fun m => by
    rw [hv]
    split
    · next hm => exact ⟨fun h => absurd h hp, fun h => .inr ⟨hm, rfl, h⟩⟩
    · exact ⟨.inl, .inl⟩
  have hacts := leavePresent_rest_acts (port := ⟨false, false, false⟩) (net := false) n hwhy (s := v)
    (fun h => by rw [hv, if_pos rfl]; exact hheld h) (v.leavingBoth n why)
  have hflows : (leavePresent n p cause why u).Flows V := ((hu.modNode n _).mono fun _ _ => .inl).of_acts hadm hacts
  refine hflows.restrict fun m k hk => ?_
  unfold leftWork
  rcases hflows.fits.admits hk with husual | ⟨rfl, hheld⟩
  · split
    · next hm =>
      subst hm
      have hserved : k = .served := by
        have hneeds : Presence.present = k.needs := hn.symm.trans husual
        cases k <;> simp [Work.needs] at hneeds ⊢
      exact absurd (hserved ▸ hk) (leavePresent_ended hflows.fits)
    · exact husual
  · rw [if_pos rfl]
    exact hheld

/-- R82: a node begins to be identified. -/
theorem beginIdent_flows {n : Node} (cause : IdentCause) (h : s.Flows s.usual) (hn : s.presence n ≠ .present)
    (hn' : s.presence n ≠ .identifying) : (beginIdent n cause s).Flows (beginIdent n cause s).usual := by
  let v := s.modNode n fun r => { r with presence := .identifying, cause := some cause }
  have hno : ¬ v.HasWork n .ident := fun hk => hn' ((h.modNode n _).fits.admits hk)
  have hpresence (m : Node) : (beginIdent n cause s).presence m = if m = n then .identifying else s.presence m :=
    presence_of_nodes (s := s) (f := fun r => { r with presence := .identifying, cause := some cause }) rfl
  refine ((h.modNode n _).issueIdent hno).mono fun m k hk => ?_
  rw [State.usual, hpresence]
  rcases hk with husual | ⟨rfl, rfl⟩
  · split
    · next hm =>
      subst hm
      have husual : s.presence m = k.needs := husual
      cases k <;> simp [Work.needs] at husual <;> contradiction
    · exact husual
  · rw [if_pos rfl]
    rfl

theorem issueIdent_presence (n m : Node) (s : State) : (issueIdent n s).presence m = s.presence m := rfl

/-- R87: a restarted node. -/
theorem restartNode_flows {n : Node} (h : s.Flows s.usual) (hn : s.presence n = .present) :
    (restartNode n s).Flows (restartNode n s).usual := by
  have hacts := nodeEvent_acts (port := ⟨false, false, false⟩) (net := false) .nodeRestarted n .none 0 s
  have hnodes : (nodeEvent .nodeRestarted n .none 0 s).nodes = upd s.nodes n fun r => r := by rw [hacts.nodes_links.1, upd_id]
  have hleft := leavePresent_flows (cause := some .restart) (p := .identifying) (why := .nodeRestarted) hnodes
    (h.of_acts s.admits_usual hacts) hn (by simp) (by simp) fun _ => rfl
  refine (hleft.issueIdent fun hk => ?_).mono fun m k hk => ?_
  · have hadmits := hleft.fits.admits hk
    simp [leftWork] at hadmits
  · have hpresence : (restartNode n s).presence m = if m = n then .identifying else s.presence m := by
      rw [restartNode, issueIdent_presence]
      exact leavePresent_presence_of _ hnodes m
    rw [State.usual, hpresence]
    rcases hk with hk | ⟨rfl, rfl⟩
    · unfold leftWork at hk
      split
      · next hm =>
        rw [if_pos hm] at hk
        rw [hk.1]
        rfl
      · next hm => rwa [if_neg hm] at hk
    · rw [if_pos rfl]
      rfl

/-! ## Links -/

/-- R97, R104: the link record has been set, the transmitter is quiet, and the hosts are told. -/
def departTold (l : Link) (next : LinkState) (why : Reason) (s : State) : State :=
  let quiet := goQuiet l (s.modLink l fun k => k.depart next why s.timeBase)
  if announces (s.linkState l) next then
    broadcast (eventOf .linkDown (byteOf l.val) why.code ((s.linkState l).code.setWidth 16)) quiet
  else quiet

/-- The entries whose node was PRESENT before the departure. -/
def State.departs (s : State) (l : Link) (e : Entry) : Bool :=
  ((linkNodes l).filter fun n => s.presence n = .present).contains e.node

theorem State.departs_iff (s : State) (l : Link) (e : Entry) :
    s.departs l e = true ↔ nodeLink e.node = l ∧ s.presence e.node = .present := by
  simp [State.departs, mem_linkNodes]

/-- R104: the owners' part of a departure, in either order. -/
def departEnded (l : Link) (why : Reason) (s : State) : State :=
  eitherOrder (s.departingBoth l) (departArbiter l (failureReason why)) (departWrites l (failureReason why)) s

theorem departLink_eq (l : Link) (next : LinkState) (why : Reason) (s : State) :
    departLink l next why s
      = forEntries (s.departs l) suspendEntry (departEnded l why (emptyPollQueue l (departNodes l (departTold l next why s)))) := rfl

/-- The requests of link `l`, its IDENTs and its fetches are gone. -/
def State.LinesGone (l : Link) (s : State) : Prop :=
  (∀ t, s.request l t = none) ∧ (s.arbiters.get l).idents = [] ∧ (s.arbiters.get l).fetches = []

theorem State.LinesGone.of_arbiters {l : Link} (h : s.LinesGone l) (ha : t.arbiters = s.arbiters) : t.LinesGone l := by
  simpa only [State.LinesGone, State.request, ha] using h

theorem departArbiter_gone (l : Link) (fail : Reason) (s : State) : (departArbiter l fail s).LinesGone l := by
  unfold departArbiter
  dsimp only
  have hreq (t : Tag) := endRequests_request l (fun _ => true) (fun _ => fail) s l t
  generalize endRequests l _ _ s = u at hreq
  have ha := endFetches_arbiters l (fun _ => true) fail u
  refine ⟨fun t => ?_, ?_, ?_⟩
  · have hreq := hreq t
    rw [if_pos rfl, Option.filter_eq_none_iff.2 (by simp)] at hreq
    simpa [State.request, ha] using hreq
  · simp
  · simp [ha]

theorem departWrites_ended (l : Link) (fail : Reason) (s : State) :
    (departWrites l fail s).WritesEnded (fun _ => True) (fun st => st = .queued ∨ st = .held) l := by
  unfold departWrites
  dsimp only
  refine ⟨fun r hr _ hstate => ?_, fun r hr _ => lapseReservations_reserved _ _ _ _ hr fun _ _ => rfl⟩
  rw [lapseReservations, State.modWrites_writeQueues, get_upd_self, failWrites_writeQueues, get_upd_self] at hr
  have hkept := List.of_mem_filter hr
  simp [hstate] at hkept

theorem departArbiter_shrinks (l : Link) (fail : Reason) (s : State) : s.Shrinks (departArbiter l fail s) := by
  have hrequests := endRequests_shrinks l (fun _ => true) (fun _ => fail) s
  unfold departArbiter
  dsimp only
  generalize endRequests l _ _ s = u at hrequests
  exact hrequests.trans (.of_eq (endFetches_writeQueues l _ fail u))

theorem departWrites_arbiters (l : Link) (fail : Reason) (s : State) : (departWrites l fail s).arbiters = s.arbiters :=
  failWrites_read (g := State.arbiters) (fun _ _ _ => rfl) (fun _ _ _ => rfl) (fun _ _ _ => rfl) (fun _ _ _ => rfl) ..

/-- R104: no work of the link's nodes is left. -/
theorem departLink_ended {l : Link} {next : LinkState} {why : Reason} (ht : (departLink l next why s).TrafficFits s.usual)
    {n : Node} {k : Work} (hn : nodeLink n = l) : ¬ (departLink l next why s).HasWork n k := by
  rw [departLink_eq] at ht ⊢
  generalize emptyPollQueue l (departNodes l (departTold l next why s)) = v at ht ⊢
  have haside := forEntries_suspendEntry_aside (s.departs l) (departEnded l why v)
  have hlines := State.LinesGone.of_arbiters (eitherOrder_of_first _ (departArbiter_gone l (failureReason why))
    (fun x hx => hx.of_arbiters (departWrites_arbiters l (failureReason why) x)) v) (haside.read (g := State.arbiters) fun _ _ _ _ => rfl)
  have hwrites := State.WritesEnded.of_shrinks (eitherOrder_of_second _ (departWrites_ended l (failureReason why))
    (fun x hx => hx.of_shrinks (departArbiter_shrinks l _ x)) v) (.of_eq (haside.read (g := State.writeQueues) fun _ _ _ _ => rfl))
  intro hwork
  cases hwork with
  | @request m t r hr =>
    obtain rfl : m = l := (ht.lines.requests m t r hr).1.symm.trans hn
    rw [hlines.1 t] at hr
    cases hr
  | @ident m _ hm =>
    obtain rfl : m = l := (ht.lines.idents m n hm).1.symm.trans hn
    rw [hlines.2.1] at hm
    cases hm
  | @fetch m f hf =>
    obtain rfl : m = l := (ht.lines.fetches m f hf).1.symm.trans hn
    rw [hlines.2.2] at hf
    cases hf
  | @entry i e he hstate =>
    refine hstate (forEntries_suspendEntry_suspended _ _ he fun x hx => (s.departs_iff l x).2 ?_)
    rw [hx]
    exact ⟨hn, ht.entries.entries i e he hstate⟩
  | @queued m r hr hstate =>
    obtain rfl : m = l := (ht.writes.order m r hr).1.symm.trans hn
    exact hwrites.1 r hr trivial (.inl hstate)
  | @held m r hr hstate =>
    obtain rfl : m = l := (ht.writes.order m r hr).1.symm.trans hn
    exact hwrites.1 r hr trivial (.inr hstate)
  | @reserved m r hr hno =>
    obtain rfl : m = l := (ht.writes.reserved m r hr).1.symm.trans hn
    exact hwrites.2 r hr trivial hno

theorem departTold_flows (l : Link) (next : LinkState) (why : Reason) (h : s.Flows W) (hadm : s.Admits W) :
    (departTold l next why s).Flows W := by
  have hquiet : (goQuiet l (s.modLink l fun k => k.depart next why s.timeBase)).Flows W := by
    refine ⟨⟨?_, h.fits.entries.of_view rfl, h.fits.writes.of_writes rfl⟩, fun m => ?_⟩
    · exact State.LinesFit.modArbiter (h.fits.lines.of_arbiters rfl) (sameWork_refl _) (.refl _) (h.fits.lines.fetches l)
    · by_cases hm : m = l
      · subst hm
        exact .inr (.inr (by simp [goQuiet]))
      · rw [goQuiet, State.modArbiter_linkState', State.modLink_linkState, if_neg hm, State.modArbiter_arbiters, get_upd_ne _ _ hm]
        exact h.quiet m
  unfold departTold
  dsimp only
  split
  · exact hquiet.of_acts (hadm.of_nodes rfl) (broadcast_acts (port := ⟨false, false, false⟩) ..)
  · exact hquiet

theorem departNodes_flows (l : Link) (h : s.Flows W) : (departNodes l s).Flows W := by
  unfold departNodes
  induction linkNodes l generalizing s with
  | nil => exact h
  | cons n ns ih => exact ih (h.modNode n _)

/-- R104: the work of the link's nodes is gone, and that of the others stays. -/
theorem departLink_flows {l : Link} {next : LinkState} {why : Reason} (h : s.Flows s.usual) :
    (departLink l next why s).Flows (departLink l next why s).usual := by
  have htold := departTold_flows l next why h s.admits_usual
  have hpresence (n : Node) : (departLink l next why s).presence n = if nodeLink n = l then .unknown else s.presence n := by
    rw [State.presence, (departLink_records l next why s).1]
    split <;> rfl
  have hacts : Acts ⟨false, false, true⟩ false (departNodes l (departTold l next why s)) (departLink l next why s) :=
    after (departLink_rest_acts l why _ (s.departs l) _) (.single (.emptied rfl l _))
  have hsame (n : Node) : (departNodes l (departTold l next why s)).presence n = (departLink l next why s).presence n := by
    rw [State.presence, State.presence]
    exact congrArg (fun ns : Vector NodeRecord 8 => (ns.get n).presence) hacts.nodes_links.1.symm
  have hadm : (departNodes l (departTold l next why s)).Admits s.usual := fun n => by
    rw [hsame, hpresence]
    split
    · exact ⟨nofun, nofun⟩
    · exact ⟨id, id⟩
  have hflows : (departLink l next why s).Flows s.usual := (departNodes_flows l htold).of_acts hadm hacts
  refine hflows.restrict fun n k hk => ?_
  rw [State.usual, hpresence]
  split
  · next hn => exact absurd hk (departLink_ended hflows.fits hn)
  · exact hflows.fits.admits hk

/-- R101: the nodes of a link begin to be identified. -/
theorem enterEnumerating_flows {l : Link} {f : LinkRecord → LinkRecord} (h : s.Flows s.usual) (hquiet : s.quietNodesOk)
    (hl : s.linkState l = .training) :
    (enterEnumerating l (s.modLink l f)).Flows (enterEnumerating l (s.modLink l f)).usual := by
  have hunknown (n : Node) (hn : nodeLink n = l) : s.presence n = .unknown := by
    rcases hquiet n with h | h | h
    · simp [hn, hl] at h
    · simp [hn, hl] at h
    · exact h
  let v := (s.modLink l f).modLink l fun k => k.enumerate s.timeBase
  have hv : v.Flows v.usual := by
    refine ⟨(h.fits.of_same rfl rfl rfl : v.TrafficFits s.usual), fun m => ?_⟩
    by_cases hm : m = l
    · subst hm
      refine .inl ?_
      rw [State.modLink_linkState, if_pos rfl]
      rfl
    · rw [State.modLink_linkState, if_neg hm, State.modLink_linkState, if_neg hm]
      exact h.quiet m
  have hfold (ns : List Node) (hns : ns.Nodup) (w : State) (hw : w.Flows w.usual) (hpresence : ∀ n ∈ ns, w.presence n = .unknown) :
      (ns.foldl (fun s n => beginIdent n .enumeration s) w).Flows (ns.foldl (fun s n => beginIdent n .enumeration s) w).usual := by
    induction ns generalizing w with
    | nil => exact hw
    | cons n ns ih =>
      obtain ⟨hn, hns⟩ := List.nodup_cons.1 hns
      have hwn := hpresence n List.mem_cons_self
      refine ih hns _ (beginIdent_flows .enumeration hw (by simp [hwn]) (by simp [hwn])) fun m hm => ?_
      rw [show (beginIdent n .enumeration w).presence m = if m = n then .identifying else w.presence m from
        presence_of_nodes (s := w) (f := fun r => { r with presence := .identifying, cause := some .enumeration }) rfl,
        if_neg (by rintro rfl; exact hn hm)]
      exact hpresence m (List.mem_cons_of_mem _ hm)
  exact hfold _ (linkNodes_nodup l) v hv fun n hn => hunknown n (mem_linkNodes.1 hn)

/-! ## IDENT endings -/

/-- No write of node `n` is HELD. -/
def State.NoneHeld (n : Node) (s : State) : Prop := ∀ l, ∀ r ∈ (s.writeQueues.get l).order, r.node = n → r.state ≠ .held

theorem State.NoneHeld.not_hasWork {n : Node} (h : s.NoneHeld n) : ¬ s.HasWork n .held := by
  generalize hk : Work.held = k
  intro hwork
  cases hwork with
  | @request l t r hr =>
    unfold Request.work at hk
    split at hk <;> cases hk
  | held hr hstate => exact h _ _ hr rfl hstate
  | _ => cases hk

theorem State.NoneHeld.of_shrinks {n : Node} (h : s.NoneHeld n) (ht : s.Shrinks t) : t.NoneHeld n :=
  fun l r hr => h l r ((ht.order l).subset hr)

/-- R58, R59: no HELD write is left at its link; the writes on the other link are of other nodes. -/
theorem noneHeld_of_modWrites {n : Node} {g : WriteQueue → WriteQueue} (hs : s.WritesFit W)
    (hw : t.writeQueues = upd s.writeQueues (nodeLink n) g)
    (hg : ∀ r ∈ (g (s.writeQueues.get (nodeLink n))).order, r.node = n → r.state ≠ .held) : t.NoneHeld n := by
  intro l r hr hn
  rw [hw, get_upd] at hr
  split at hr
  · exact hg r hr hn
  · next hl => exact absurd (hn ▸ (hs.order l r hr).1).symm hl

theorem failNodeWrites_noneHeld {n : Node} (why : Reason) (hs : s.WritesFit W) : (failNodeWrites n .held why s).NoneHeld n := by
  refine noneHeld_of_modWrites hs (failWrites_writeQueues ..) fun r hr hn hheld => ?_
  simpa [hn, hheld] using List.of_mem_filter hr

theorem releaseWrites_noneHeld {n : Node} (hs : s.WritesFit W) : (releaseWrites n s).NoneHeld n := by
  refine noneHeld_of_modWrites hs (g := fun q => { q with order := ((q.order.filter fun r =>
      !(decide (r.node = n ∧ r.state = .held) && decide (s.maxLength n < r.data.length))).map fun r =>
        if r.node = n ∧ r.state = .held then { r with state := .queued } else r) }) ?_ fun r hr hn hheld => ?_
  · rw [releaseWrites, State.modWrites_writeQueues, failWrites_writeQueues, upd_upd]
  · obtain ⟨x, -, rfl⟩ := List.mem_map.1 hr
    split at hheld
    · cases hheld
    · next hx => exact hx ⟨by simpa [hx] using hn, hheld⟩

/-- The usual work of all nodes but `n`, and of node `n` what `p` accepts. -/
def State.usualBut (s : State) (n : Node) (p : Work → Prop) (m : Node) (k : Work) : Prop := if m = n then p k else s.usual m k

theorem State.usualBut_of_presence {n : Node} {p p' : Work → Prop} (hs : ∀ m, m ≠ n → t.presence m = s.presence m)
    (hp : ∀ k, p k → p' k) (m : Node) (k : Work) (h : s.usualBut n p m k) : t.usualBut n p' m k := by
  unfold State.usualBut at h ⊢
  by_cases hm : m = n
  · rw [if_pos hm] at h ⊢
    exact hp k h
  · rw [if_neg hm] at h ⊢
    rw [State.usual, hs m hm]
    exact h

theorem State.admits_usualBut {n : Node} {p : Work → Prop} (hserved : s.presence n = .present → p .served)
    (hheld : s.presence n = .identifying → p .held) : s.Admits (s.usualBut n p) := fun m => by
  unfold State.usualBut
  by_cases hm : m = n
  · simp only [hm, if_true]
    exact ⟨hserved, hheld⟩
  · simp only [hm, if_false]
    exact ⟨id, id⟩

/-- Changes that leave the nodes. -/
theorem State.Flows.usualBut_of_acts {n : Node} {p : Work → Prop} (h : s.Flows (s.usualBut n p)) (hadm : s.Admits (s.usualBut n p))
    (hacts : Acts ⟨false, false, false⟩ false s t) : t.Flows (t.usualBut n p) := by
  have hflows := h.of_acts hadm hacts
  have husual : t.usualBut n p = s.usualBut n p := by
    funext m k
    rw [State.usualBut, State.usual_of_nodes hacts.nodes_links.1, State.usualBut]
  rwa [husual]

/-- R58, R81: the owners have resumed the work of a node that has become PRESENT. -/
theorem resumed_flows {n : Node} (b : Bool) (h : s.Flows (s.usualBut n (· ≠ .ident))) (hn : s.presence n = .present) :
    (eitherOrder b (resumeNode n) (releaseWrites n) s).Flows (eitherOrder b (resumeNode n) (releaseWrites n) s).usual := by
  have hflows := h.usualBut_of_acts (s.admits_usualBut (by simp) (by simp [hn])) (becomePresent_rest_acts n hn b)
  have hpresence : (eitherOrder b (resumeNode n) (releaseWrites n) s).presence n = .present := by
    rw [State.presence, (becomePresent_rest_acts (port := ⟨false, false, false⟩) n hn b).nodes_links.1]
    exact hn
  have hresume (u : State) : (resumeNode n u).writeQueues = u.writeQueues :=
    resumeNode_read (g := State.writeQueues) (fun _ _ _ => rfl) (fun _ _ _ => rfl) (fun _ _ _ => rfl) n u
  have hrelease (u : State) (hu : u.writeQueues = s.writeQueues) : (releaseWrites n u).NoneHeld n :=
    releaseWrites_noneHeld (h.fits.writes.of_writes hu)
  have hheld : (eitherOrder b (resumeNode n) (releaseWrites n) s).NoneHeld n := by
    obtain ⟨c, hc | hc⟩ := eitherOrder_cases b (resumeNode n) (releaseWrites n) s <;> rw [hc]
    · exact hrelease _ (hresume _)
    · exact (hrelease { s with choices := c } rfl).of_shrinks (.of_eq (hresume _))
  refine hflows.restrict fun m k hk => ?_
  have hadmits := hflows.fits.admits hk
  unfold State.usualBut at hadmits
  split at hadmits
  · next hm =>
    subst hm
    cases k with
    | served => exact hpresence
    | ident => exact absurd rfl hadmits
    | held => exact absurd hk hheld.not_hasWork
  · exact hadmits

/-- R81: an identified node whose work is at most held back has become PRESENT. -/
theorem becomePresent_flows {n : Node} (k : Option EventKind) (m : Word16) (h : s.Flows (s.usualBut n (· = .held))) :
    (becomePresent n k m s).Flows (becomePresent n k m s).usual := by
  let v := s.modNode n fun r => { r with presence := .present, cause := none, timeouts := 0 }
  have hv (x : Node) : v.presence x = if x = n then .present else s.presence x :=
    presence_of_nodes (s := s) (f := fun r => { r with presence := .present, cause := none, timeouts := 0 }) rfl
  have hvn : v.presence n = .present := (hv n).trans (if_pos rfl)
  have hvflows : v.Flows (v.usualBut n (· ≠ .ident)) := (h.modNode n _).mono
    (State.usualBut_of_presence (fun x hx => (hv x).trans (if_neg hx)) (by rintro _ rfl; simp))
  cases k with
  | none => exact resumed_flows _ hvflows hvn
  | some k =>
    have htold := nodeEvent_acts (port := ⟨false, false, false⟩) (net := false) k n .none m v
    refine resumed_flows _ (hvflows.usualBut_of_acts (v.admits_usualBut (by simp) (by simp [hvn])) htold) ?_
    rw [State.presence, htold.nodes_links.1]
    exact hvn

/-- R59, R83, R85: a node whose work is at most held back has become neither PRESENT nor IDENTIFYING, and its HELD writes fail. -/
theorem failNodeWrites_flows {n : Node} (why : Reason) (hp : s.presence n ≠ .present) (h : s.Flows (s.usualBut n (· = .held))) :
    (failNodeWrites n .held why s).Flows (failNodeWrites n .held why s).usual := by
  have hflows := h.usualBut_of_acts (s.admits_usualBut (fun h => absurd h hp) fun _ => rfl)
    (failNodeWrites_acts n (st := .held) why (by simp) s)
  have hheld := failNodeWrites_noneHeld (n := n) why h.fits.writes
  refine hflows.restrict fun m k hk => ?_
  have hadmits := hflows.fits.admits hk
  unfold State.usualBut at hadmits
  split at hadmits
  · next hm =>
    subst hm hadmits
    exact absurd hk hheld.not_hasWork
  · exact hadmits

theorem reportEnumeration_flows (l : Link) (h : s.Flows s.usual) : (reportEnumeration l s).Flows (reportEnumeration l s).usual := by
  unfold reportEnumeration
  split
  · let v := s.modLink l fun k => { k with state := .up, stamp := low16 s.timeBase }
    have hv : v.Flows v.usual := by
      refine ⟨(h.fits.of_same rfl rfl rfl : v.TrafficFits s.usual), fun m => ?_⟩
      by_cases hm : m = l
      · subst hm
        refine .inr (.inl ?_)
        rw [State.modLink_linkState, if_pos rfl]
      · rw [State.modLink_linkState, if_neg hm]
        exact h.quiet m
    have htold := broadcast_acts (port := ⟨false, false, false⟩) (net := false) v (eventOf .linkUp (byteOf l.val) Reason.none.code (BitVec.ofNat 16 (v.presentCount l)))
    have hflows := hv.of_acts v.admits_usual htold
    rwa [← State.usual_of_nodes htold.nodes_links.1] at hflows
  · exact h

/-- R59: a node that was identified is ABSENT or QUARANTINED, the hosts are told, and its HELD writes fail. -/
theorem turnedAway_flows {n : Node} (why : Reason) {p : Presence} (hp : p ≠ .present)
    (h : s.Flows (s.usualBut n (· = .held))) (hacts : Acts ⟨false, false, false⟩ false (s.modNode n fun r => { r with presence := p, cause := none }) t) :
    (failNodeWrites n .held why t).Flows (failNodeWrites n .held why t).usual := by
  let v := s.modNode n fun r => { r with presence := p, cause := none }
  have hv (x : Node) : v.presence x = if x = n then p else s.presence x :=
    presence_of_nodes (s := s) (f := fun r => { r with presence := p, cause := none }) rfl
  have hvn : v.presence n = p := (hv n).trans (if_pos rfl)
  have hvflows : v.Flows (v.usualBut n (· = .held)) := (h.modNode n _).mono
    (State.usualBut_of_presence (fun x hx => (hv x).trans (if_neg hx)) fun _ => id)
  have htn : t.presence n = p := by
    rw [State.presence, hacts.nodes_links.1]
    exact hvn
  exact failNodeWrites_flows why (htn ▸ hp)
    (hvflows.usualBut_of_acts (v.admits_usualBut (fun h => absurd (hvn.symm.trans h) hp) fun _ => rfl) hacts)

theorem identFailed_flows {n : Node} (o : Reason) (h : s.Flows (s.usualBut n (· = .held))) :
    (identFailed n o s).Flows (identFailed n o s).usual := by
  unfold identFailed
  refine turnedAway_flows .nodeLost (p := .absent) (by simp) h ?_
  exact chain_ite (nodeEvent_acts ..) .refl

theorem State.identify_presence (n : Node) (i : Identity) (c : BitVec 4) (s : State) (m : Node) :
    (s.identify n i c).presence m = s.presence m := by
  rw [presence_of_nodes (t := s.identify n i c) (s := s) (f := fun r => { r with identity := some i, noticeCount := c }) rfl]
  split
  · next hm => rw [hm]; rfl
  · rfl

theorem identAnswered_flows {n : Node} (i : Identity) (c : BitVec 4) (h : s.Flows (s.usualBut n (· = .held)))
    (hn : s.presence n = .identifying) : (identAnswered n i c s).Flows (identAnswered n i c s).usual := by
  have hidentified : (s.identify n i c).Flows ((s.identify n i c).usualBut n (· = .held)) := (h.modNode n _).mono
    (State.usualBut_of_presence (fun x _ => s.identify_presence n i c x) fun _ => id)
  have hrecorded := hidentified.usualBut_of_acts
    (State.admits_usualBut (by simp [State.identify_presence, hn]) fun _ => rfl) (.of_touches (recordIdentity_touches n i c s))
  unfold identAnswered
  dsimp only
  split
  · exact becomePresent_flows _ _ hrecorded
  · exact turnedAway_flows .quarantined (p := .quarantined) (by simp) hrecorded (nodeEvent_acts ..)

theorem identEnded_flows {n : Node} {o : Reason} {data : List Byte} (h : s.Flows s.usual) (hno : ¬ s.HasWork n .ident) :
    (identEnded n o data s).Flows (identEnded n o data s).usual := by
  rcases identEnded_cases n o data s with heq | ⟨hn, hended⟩
  · rw [heq]
    exact h
  have hleft : s.Flows (s.usualBut n (· = .held)) := h.restrict fun m k hk => by
    have hadmits := h.fits.admits hk
    unfold State.usualBut
    split
    · next hm =>
      subst hm
      have hneeds : Presence.identifying = k.needs := hn.symm.trans hadmits
      cases k with
      | served => cases hneeds
      | ident => exact absurd hk hno
      | held => rfl
    · exact hadmits
  rcases hended with ⟨i, c, -, -, heq⟩ | ⟨-, heq⟩ <;> rw [heq] <;> refine reportEnumeration_flows _ ?_
  · exact identAnswered_flows i c hleft hn
  · exact identFailed_flows o hleft

theorem freeTag_flows {l : Link} {g : Tag} {r : Request} (h : s.Flows s.usual) (hr : s.request l g = some r) (hident : r.isIdent = true) :
    (freeTag l g r s).Flows (freeTag l g r s).usual ∧ ¬ (freeTag l g r s).HasWork r.node .ident := by
  have hacts := freeTag_acts (port := ⟨false, false, false⟩) (net := false) hr hident
  have hflows := h.of_acts s.admits_usual hacts
  have hreq (m : Link) (u : Tag) : (freeTag l g r s).request m u = if m = l ∧ u = g then none else s.request m u := by
    rw [freeTag, withdraw_request, keepBegun_request]
  have hids (m : Link) : ((freeTag l g r s).arbiters.get m).idents = (s.arbiters.get m).idents := by
    have hwithdraw (u : State) : ((withdraw l g u).arbiters.get m).idents = (u.arbiters.get m).idents := by
      rw [withdraw, State.modArbiter_arbiters, get_upd]
      split
      · next hm => rw [hm]; rfl
      · rfl
    rw [freeTag, hwithdraw]
    rcases keepBegun_cases l g r s with ⟨-, h⟩ | ⟨-, h | h⟩ <;> rw [h]
    rw [State.modArbiter_arbiters, get_upd]
    split
    · next hm => rw [hm]
    · rfl
  refine ⟨by rwa [State.usual_of_nodes hacts.nodes_links.1], fun hk => ?_⟩
  have hlines := h.fits.lines
  obtain ⟨hpending, hothers⟩ := hlines.single l g r hr hident
  generalize hk' : Work.ident = k, hn : r.node = n at hk
  cases hk with
  | @request m u x hx =>
    rw [hreq] at hx
    split at hx
    · cases hx
    · next hmu =>
      have hxident : x.isIdent = true := by
        unfold Request.work at hk'
        split at hk'
        · assumption
        · cases hk'
      obtain rfl : m = l := (hlines.requests m u x hx).1.symm.trans (hn ▸ (hlines.requests l g r hr).1)
      exact hothers u (fun hu => hmu ⟨rfl, hu⟩) x hx hxident hn.symm
  | @ident m _ hm =>
    rw [hids] at hm
    obtain rfl : m = l := (hlines.idents m n hm).1.symm.trans (hn ▸ (hlines.requests l g r hr).1)
    exact hpending (hn ▸ hm)
  | _ => cases hk'

/-! ## A tag's copy waits again -/

theorem State.linkState_of_request {l : Link} {g : Tag} {r : Request} (hs : s.trafficOk) (hr : s.request l g = some r) :
    s.linkState l = .enumerating ∨ s.linkState l = .up := by
  obtain ⟨hlink, hpresence⟩ := hs.2.1 l g r hr
  rcases hlink ▸ hs.1 r.node with h | h | h
  · exact .inl h
  · exact .inr h
  · rw [h] at hpresence
    split at hpresence <;> cases hpresence

/-- A link keeps its state, or moves between states without traffic. -/
theorem State.Flows.modLink {l : Link} {f : LinkRecord → LinkRecord} (h : s.Flows W)
    (hstate : (f (s.links.get l)).state = s.linkState l ∨ (s.linkState l).quiet ∧ (f (s.links.get l)).state.quiet) :
    (s.modLink l f).Flows W := by
  refine ⟨h.fits.of_same rfl rfl rfl, fun m => ?_⟩
  rw [State.modLink_linkState]
  split
  · next hm =>
    subst hm
    rcases hstate with hsame | ⟨⟨hne, hnu⟩, -⟩
    · rw [hsame]
      exact h.quiet m
    · exact .inr (.inr (((h.quiet m).resolve_left hne).resolve_left hnu))
  · exact h.quiet m

theorem resend_flows {l : Link} {g : Tag} (h : s.Flows W) (hbusy : s.linkState l = .enumerating ∨ s.linkState l = .up) :
    (resend l g s).Flows W := by
  have hsame : (s.arbiters.get l).SameWork { ((s.arbiters.get l).modTag g fun tr => { tr with request := tr.request.map Request.resent }) with
      txOrder := if g ∈ (s.arbiters.get l).txOrder then (s.arbiters.get l).txOrder else (s.arbiters.get l).txOrder ++ [g] } :=
    .of_upd rfl rfl fun r => r.resent_sameWork
  exact State.Flows.modLink ⟨⟨h.fits.lines.modArbiter hsame.request (.refl _) (h.fits.lines.fetches l), h.fits.entries.of_view rfl,
    h.fits.writes.of_writes rfl⟩, quietLinesOk_modArbiter (hbusy.imp_right .inl) h.quiet⟩ (.inl rfl)

/-! ## Every move -/

theorem modNode_flows {n : Node} {f : NodeRecord → NodeRecord} (h : s.Flows s.usual) (hf : ∀ r, (f r).presence = r.presence) :
    (s.modNode n f).Flows (s.modNode n f).usual := by
  have husual : (s.modNode n f).usual = s.usual := by
    funext m k
    rw [State.usual, presence_of_nodes (s := s) (f := f) rfl, hf]
    split
    · next hm => rw [hm]; rfl
    · rfl
  rw [husual]
  exact h.modNode n f

/-- R78, R90, R92: a node is lost or quarantined. -/
theorem leavePresent_usual {n : Node} {p : Presence} {cause : Option IdentCause} {why : Reason} {f : NodeRecord → NodeRecord}
    (hnodes : u.nodes = upd s.nodes n f) (hu : u.Flows s.usual) (hn : s.presence n = .present)
    (hp : (p = .absent ∧ why = .nodeLost) ∨ (p = .quarantined ∧ why = .quarantined)) :
    (leavePresent n p cause why u).Flows (leavePresent n p cause why u).usual := by
  have hgone : p ≠ .present ∧ p ≠ .identifying ∧ why ≠ .ok ∧ why ≠ .nodeRestarted := by
    rcases hp with ⟨rfl, rfl⟩ | ⟨rfl, rfl⟩ <;> simp
  obtain ⟨hpresent, hidentifying, hok, hrestarted⟩ := hgone
  refine (leavePresent_flows hnodes hu hn hpresent hok fun h => absurd h hrestarted).mono fun m k hk => ?_
  unfold leftWork at hk
  rw [State.usual, leavePresent_presence_of why hnodes]
  split at hk
  · exact absurd hk.2 hidentifying
  · next hm => rwa [if_neg hm]

theorem trafficOk_move {port : Scope} (hmove : Move port s t) (hs : s.trafficOk) : t.trafficOk := by
  refine t.trafficOk_iff_flows.2 ⟨quietNodesOk_move hmove hs.1, ?_⟩
  obtain ⟨hquiet, h⟩ := s.trafficOk_iff_flows.1 hs
  cases hmove with
  | acts hacts =>
    rw [State.usual_of_nodes (hacts false).nodes_links.1]
    exact h.of_acts s.admits_usual (hacts false)
  | linked l f _ _ hstate => exact h.modLink hstate
  | resent l g r _ hr => exact resend_flows h (State.linkState_of_request hs hr)
  | noded n f _ hf => exact modNode_flows h fun r => (hf r).1
  | begun n cause f _ hf _ hn =>
    have hpresence : (s.modNode n f).presence n = s.presence n := by
      rw [presence_of_nodes (s := s) (f := f) rfl, if_pos rfl, (hf _).1]
      rfl
    refine beginIdent_flows cause (modNode_flows h fun r => (hf r).1) ?_ ?_ <;> rw [hpresence] <;> rcases hn with hn | hn <;> simp [hn]
  | left n p why k reason v f _ hf hn hp =>
    have htold := nodeEvent_acts (port := ⟨false, false, false⟩) (net := false) k n reason v (s.modNode n f)
    refine leavePresent_usual (f := f) htold.nodes_links.1 (State.Flows.of_acts (h.modNode n f) (fun m => ?_) htold) hn hp
    have hpresence : (s.modNode n f).presence m = s.presence m := by
      rw [presence_of_nodes (s := s) (f := f) rfl, (hf _).1]
      split
      · next hm => rw [hm]; rfl
      · rfl
    rw [hpresence]
    exact s.admits_usual m
  | restarted n _ hn => exact restartNode_flows h hn
  | departed l next why f _ hnext hstate => exact departLink_flows (h.modLink (.inl hstate))
  | enumerated l f _ hstate => exact enterEnumerating_flows h hquiet hstate
  | identEnded l g r o data _ hr hident =>
    obtain ⟨hfreed, hno⟩ := freeTag_flows h hr hident
    exact identEnded_flows hfreed hno

end

end Sys2Proof.Machine

/-!
# One fetch of a host (R127, R128, R130)
-/

namespace Sys2Proof.Machine

set_option Elab.async false

/-- The fetches of host `h` pending or in flight on link `l`. -/
def State.fetchesOf (s : State) (h : Host) (l : Link) : Nat :=
  ((s.arbiters.get l).fetches.filter fun f => decide (f.host = h)).length + s.inFlight (Request.fetchOf h) l

theorem State.fetchLimitOk_iff (s : State) : s.fetchLimitOk ↔ ∀ h, s.fetchesOf h 0 + s.fetchesOf h 1 ≤ 1 := by
  refine forall_congr' fun h => ?_
  rw [show (List.finRange 2 : List Link) = [0, 1] from by decide]
  simp only [List.map_cons, List.map_nil, List.sum_cons, List.sum_nil, Nat.add_zero]
  rfl

section
variable {s t : State}

/-- No more fetches than before. -/
def State.FewerFetches (s t : State) : Prop := ∀ h l, t.fetchesOf h l ≤ s.fetchesOf h l

theorem State.FewerFetches.keeps (h : s.FewerFetches t) (hs : s.fetchLimitOk) : t.fetchLimitOk := by
  rw [State.fetchLimitOk_iff] at hs ⊢
  exact fun g => (Nat.add_le_add (h g 0) (h g 1)).trans (hs g)

theorem State.FewerFetches.of_arbiters (h : t.arbiters = s.arbiters) : s.FewerFetches t := fun g l => by
  rw [State.fetchesOf, h, State.inFlight_of_arbiters h]
  rfl

theorem State.FewerFetches.trans {u : State} (h : s.FewerFetches t) (h' : t.FewerFetches u) : s.FewerFetches u :=
  fun g l => (h' g l).trans (h g l)

theorem modArbiter_fetches (l m : Link) (f : Arbiter → Arbiter) (s : State) :
    ((s.modArbiter l f).arbiters.get m).fetches = if m = l then (f (s.arbiters.get l)).fetches else (s.arbiters.get m).fetches := by
  rw [State.modArbiter_arbiters, get_upd]
  split <;> rfl

theorem withdraw_fewerFetches {l : Link} {g : Tag} {r : Request} (hr : s.request l g = some r) : s.FewerFetches (withdraw l g s) := by
  intro h m
  have hgone := withdraw_inFlight hr (Request.fetchOf h) m
  have hpending : ((withdraw l g s).arbiters.get m).fetches = (s.arbiters.get m).fetches := by
    rw [withdraw, modArbiter_fetches]
    split
    · next hm => rw [hm]; rfl
    · rfl
  rw [State.fetchesOf, hpending, State.fetchesOf]
  omega

theorem unfetched_fewerFetches (l : Link) (f : Arbiter → Arbiter) (htags : ∀ a, (f a).tags = a.tags)
    (hf : (f (s.arbiters.get l)).fetches.Sublist (s.arbiters.get l).fetches) : s.FewerFetches (s.modArbiter l f) := by
  intro h m
  have hflight : (s.modArbiter l f).inFlight (Request.fetchOf h) m = s.inFlight (Request.fetchOf h) m := inFlight_of_tags htags s _ m
  rw [State.fetchesOf, State.fetchesOf, hflight, modArbiter_fetches]
  split
  · next hm =>
    subst hm
    exact Nat.add_le_add_right (hf.filter _).length_le _
  · exact Nat.le_refl _

/-- A tag granted to a request that is no fetch. -/
theorem grantTag_fewerFetches {l : Link} {g : Tag} (c : RequestClass) {r : Request} (hfree : s.request l g = none)
    (hno : ∀ h, r.fetchOf h = false) : s.FewerFetches (grantTag l g c r s) := by
  intro h m
  have hflight := grantTag_inFlight hfree c r (Request.fetchOf h) m
  have hpending : ((grantTag l g c r s).arbiters.get m).fetches = (s.arbiters.get m).fetches := by
    unfold grantTag
    rw [modArbiter_fetches]
    split
    · next hm => rw [hm]; rfl
    · rfl
  rw [State.fetchesOf, State.fetchesOf, hpending, hflight, hno h]
  simp

theorem grant_fewerFetches {l : Link} {u : State} (hgrant : Grant l s u) : s.FewerFetches u := by
  cases hgrant with
  | none => exact .of_arbiters rfl
  | dropped => exact .of_arbiters rfl
  | write g r hfree =>
    exact grantTag_fewerFetches (s := sendWrite l r s) .write (lowestFree_some hfree).1 (by simp [newRequest, Request.fetchOf])
  | poll g item rest e hfree =>
    exact grantTag_fewerFetches (s := (s.modPolls l fun _ => rest).modEntry item.slot fun e => { e with phase := .inFlight }) .read
      (lowestFree_some hfree).1 (by simp [newRequest, Request.fetchOf])
  | ident g n rest hfree =>
    have hnone := modArbiter_request_of_tags (l := l) (f := fun a => { a with idents := rest }) (fun _ => rfl) s l g
    exact (unfetched_fewerFetches l (fun a => { a with idents := rest }) (fun _ => rfl) (.refl _)).trans
      (grantTag_fewerFetches .read (hnone.trans (lowestFree_some hfree).1) (by simp [newRequest, Request.fetchOf]))
  | fetch g f rest hfree hup hidents hfetches =>
    intro h m
    have hnone := modArbiter_request_of_tags (l := l) (f := fun a => { a with fetches := rest }) (fun _ => rfl) s l g
    have hsame := inFlight_of_tags (l := l) (f := fun a => { a with fetches := rest }) (fun _ => rfl) s (Request.fetchOf h) m
    have hflight := grantTag_inFlight (hnone.trans (lowestFree_some hfree).1) .read
      (newRequest (.fetch f.host f.ticket f.reported) f.node f.address f.length) (Request.fetchOf h) m
    rw [State.fetchesOf, State.fetchesOf, hflight, hsame]
    unfold grantTag
    rw [modArbiter_fetches]
    by_cases hm : m = l
    · subst hm
      simp only [if_true, hfetches, State.modArbiter_arbiters, get_upd_self, List.filter_cons]
      by_cases hh : f.host = h <;> simp [hh, newRequest, Request.fetchOf, Arbiter.modTag]
      omega
    · simp [hm]

/-- R127: a fetch is taken up where the host has none. -/
theorem fetching_keeps {l : Link} {x : FetchItem} (hno : s.fetchOpen x.host = false) (hs : s.fetchLimitOk) :
    (s.modArbiter l fun a => { a with fetches := a.fetches ++ [x] }).fetchLimitOk := by
  have hzero (m : Link) : s.fetchesOf x.host m = 0 := by
    have hopen : ¬ s.fetchOpen x.host = true := by simp [hno]
    rw [State.fetchOpen_eq_true_iff] at hopen
    refine Nat.add_eq_zero_iff.2 ⟨?_, ?_⟩
    · rw [List.length_eq_zero_iff, List.filter_eq_nil_iff]
      exact fun f hf hh => hopen (.inr ⟨m, f, hf, by simpa using hh⟩)
    · by_contra hsome
      obtain ⟨g, r, hr, hfetch⟩ := State.exists_of_inFlight hsome
      refine hopen (.inl ⟨m, g, r, hr, ?_⟩)
      unfold Request.fetchOf at hfetch
      split at hfetch
      · next y ticket reported hk => exact ⟨ticket, reported, by simpa [hk] using hfetch⟩
      all_goals cases hfetch
  rw [State.fetchLimitOk_iff] at hs ⊢
  intro h
  have hone (m : Link) : (s.modArbiter l fun a => { a with fetches := a.fetches ++ [x] }).fetchesOf h m
      = s.fetchesOf h m + if m = l ∧ x.host = h then 1 else 0 := by
    rw [State.fetchesOf, inFlight_of_tags (by exact fun _ => rfl), modArbiter_fetches, State.fetchesOf]
    by_cases hm : m = l
    · subst hm
      by_cases hh : x.host = h
      · simp [hh, List.filter_append]
        omega
      · simp [hh, List.filter_append]
    · simp [hm]
  rw [hone, hone]
  by_cases hh : x.host = h
  · subst hh
    rw [hzero, hzero]
    clear hone
    revert l
    simp only [and_true]
    decide
  · simpa [hh] using hs h

theorem fetchLimitOk_act {port : Scope} {net : Bool} (hact : Act port net s t) (hs : s.fetchLimitOk) : t.fetchLimitOk := by
  cases hact with
  | touch ht => exact (State.FewerFetches.of_arbiters ht.arbiters).keeps hs
  | aside _ _ _ harbiters => exact (State.FewerFetches.of_arbiters harbiters).keeps hs
  | retimed => exact (State.FewerFetches.of_arbiters (retimed_arbiters ..)).keeps hs
  | identified => exact (State.FewerFetches.of_arbiters (recordIdentity_arbiters ..)).keeps hs
  | freed _ i => exact (State.FewerFetches.of_arbiters (freeSlot_arbiters ..)).keeps hs
  | suspended i => exact (State.FewerFetches.of_arbiters (suspendEntry_arbiters ..)).keeps hs
  | emptied _ l => exact (State.FewerFetches.of_arbiters (emptyPollQueue_arbiters ..)).keeps hs
  | granted l => exact (grant_fewerFetches (grantOne_grant l s)).keeps hs
  | lined l f _ hf =>
    refine State.FewerFetches.keeps (fun h m => ?_) hs
    rw [State.fetchesOf, State.fetchesOf, inFlight_sameWork hf fun r r' hr => hr.fetchOf h, modArbiter_fetches]
    split
    · next hm => rw [hm, hf.fetches]
    · rfl
  | fetching l x _ hno => exact fetching_keeps hno hs
  | unfetched l p =>
    exact (unfetched_fewerFetches l (fun a => { a with fetches := a.fetches.filter p }) (fun _ => rfl) List.filter_sublist).keeps hs
  | discarded l g r _ hr => exact (withdraw_fewerFetches hr).keeps hs
  | pollEnded l g r i e f _ hr => exact ((withdraw_fewerFetches hr).trans (.of_arbiters rfl)).keeps hs
  | writeEnded l g r w o _ hr => exact ((withdraw_fewerFetches hr).trans (.of_arbiters (finishWrite_arbiters ..))).keeps hs
  | lapsed g l r why seq => exact (State.FewerFetches.of_arbiters (finishWrite_arbiters ..)).keeps hs
  | finished l r o => exact (State.FewerFetches.of_arbiters (finishWrite_arbiters ..)).keeps hs
  | _ => exact (State.FewerFetches.of_arbiters rfl).keeps hs

/-- Settles O12: each unit that moves a presence or a link's state ends the work that needed it, and the others let in only work that
the presences call for; a fetch is taken up only where the host has none. -/
theorem trafficFollowsPresence : Obligations.TrafficFollowsPresence :=
  ⟨step_keeps_of_moves resetWith_trafficOk fun _ _ => trafficOk_move,
    step_keeps resetWith_fetchLimitOk fun _ _ => fetchLimitOk_act⟩

end

end Sys2Proof.Machine

/-!
# What changes entries, poll queues and polls in flight (chapters 1 and 2)

Every change of the part, seen from the Mirror Table's entries, the two poll queues and the polls in flight, is a chain of a few kinds
of change. The invariants of entries and polls are followed along these chains.
-/

namespace Sys2Proof.Machine

set_option Elab.async false

/-- The same work is in flight. -/
def State.SameFlights (s t : State) : Prop := ∀ l g, Option.Rel Request.SameWork (s.request l g) (t.request l g)

/-- One change of entries, poll queues or polls in flight. -/
inductive PollAct (port : Scope) : State → State → Prop
  | same {s t : State} (hslots : t.slots = s.slots) (hpolls : t.pollQueues = s.pollQueues) (hflights : s.SameFlights t) : PollAct port s t
  | kept (i : SlotIx) (f : Entry → Entry) (s : State) (hf : ∀ e ∈ s.entry i, e.KeepsPhase (f e))
      (hsuspends : ∀ e ∈ s.entry i, (f e).state = .suspended → e.state = .suspended) : PollAct port s (s.modEntry i f)
  | queued (i : SlotIx) (s : State) : PollAct port s (queuePoll i s)
  | created (hnew : port.creates = true) (i : SlotIx) (e : Entry) (s : State) (hfit : s.Fits i e) : PollAct port s (s.putEntry i e)
  | freed (hnew : port.creates = false) (i : SlotIx) (s : State) (hused : (s.entry i).isSome = true) : PollAct port s (freeSlot i s)
  | suspended (i : SlotIx) (s : State) : PollAct port s (suspendEntry i s)
  | emptied (hdeparts : port.departs = true) (l : Link) (s : State) : PollAct port s (emptyPollQueue l s)
  | granted (l : Link) {s t : State} (hgrant : Grant l s t) : PollAct port s t
  | discarded (l : Link) (t : Tag) (r : Request) (s : State) (hr : s.request l t = some r)
      (hpoll : ∀ i g, r.polled = some (i, g) → pollApplies s i g r.node r.address r.length = false) : PollAct port s (withdraw l t s)
  | pollEnded (l : Link) (t : Tag) (r : Request) (i : SlotIx) (e : Entry) (f : Entry → Entry) (s : State)
      (hr : s.request l t = some r) (he : s.entry i = some e)
      (hpoll : r.polled = some (i, (s.slots.get i).generation)) (hf : e.Keeps (f e)) (hidle : (f e).phase = .idle)
      (hmark : (f e).repoll = false) (hsuspends : (f e).state = .suspended → e.state = .suspended) :
      PollAct port s ((withdraw l t s).modEntry i f)

/-- A chain of these. -/
abbrev PollActs (port : Scope) : State → State → Prop := Relation.ReflTransGen (PollAct port)

section
variable {port : Scope} {net : Bool} {s t : State}

/-! ## Changes as such chains -/

theorem State.SameFlights.of_arbiters (h : t.arbiters = s.arbiters) : s.SameFlights t := fun l g => by
  rw [show t.request l g = s.request l g by simp only [State.request, h]]
  exact sameWork_refl (s.arbiters.get l) g

theorem PollActs.of_same (hslots : t.slots = s.slots) (hpolls : t.pollQueues = s.pollQueues) (harbiters : t.arbiters = s.arbiters) :
    PollActs port s t := .single (.same hslots hpolls (.of_arbiters harbiters))

theorem Touch.pollAct (h : Touch s t) : PollAct port s t := by
  cases h with
  | told => exact .same rfl rfl (.of_arbiters rfl)
  | kept i f _ hf => exact .kept i f s (fun e he => (hf e he).toKeepsPhase) fun e he => (hf e he).suspends
  | queued i => exact .queued i s

theorem Touches.pollActs (h : Touches s t) : PollActs port s t := Relation.ReflTransGen.mono (fun _ _ => Touch.pollAct) _ _ h

theorem finishWrite_pollActs (l : Link) (r : WriteRecord) (o : Reason) (s : State) : PollActs port s (finishWrite l r o s) := by
  have hview := Prod.mk.inj (finishWrite_entryView l r o s)
  have htold := tellEnding_touches r o s
  exact htold.pollActs.trans (PollActs.of_same hview.1 hview.2 ((finishWrite_arbiters ..).trans htold.arbiters.symm))

/-- The tags of one arbiter change, and stand for the same work. -/
theorem State.SameFlights.modArbiter {l : Link} {f : Arbiter → Arbiter}
    (hf : ∀ g, Option.Rel Request.SameWork ((s.arbiters.get l).tags.get g).request ((f (s.arbiters.get l)).tags.get g).request) :
    s.SameFlights (s.modArbiter l f) := fun m g => by
  rw [State.modArbiter_request]
  split
  · next hm => exact hm ▸ hf g
  · exact sameWork_refl (s.arbiters.get m) g

theorem Act.pollActs (h : Act port net s t) : PollActs port s t := by
  cases h with
  | touch h => exact .single h.pollAct
  | aside hslots hpolls _ harbiters => exact .of_same hslots hpolls harbiters
  | retimed c p => exact .trans (b := s.retime c p) (PollActs.of_same rfl rfl rfl) (retimed_touches c p s).pollActs
  | identified _ n i c => exact .trans (b := s.identify n i c) (PollActs.of_same rfl rfl rfl) (recordIdentity_touches n i c s).pollActs
  | created hnew i e _ hfit => exact .single (.created hnew i e s hfit)
  | freed hnew i _ hused => exact .single (.freed hnew i s hused)
  | suspended i => exact .single (.suspended i s)
  | emptied hd l => exact .single (.emptied hd l s)
  | granted l => exact .single (.granted l (grantOne_grant l s))
  | lined l f _ hf => exact .single (.same rfl rfl (.modArbiter hf.request))
  | fetching l x => exact .single (.same rfl rfl (.modArbiter fun g => sameWork_refl _ g))
  | unfetched l p => exact .single (.same rfl rfl (.modArbiter fun g => sameWork_refl _ g))
  | discarded l g r _ hr hpoll => exact .single (.discarded l g r s hr hpoll)
  | pollEnded l g r i e f _ hr he hpoll hf hidle hmark hallow =>
    exact .single (.pollEnded l g r i e f s hr he hpoll.1 hf hidle hmark hallow.suspends)
  | writeEnded l g r w o _ hr hwrite =>
    have hpoll : r.polled = none := by
      unfold Request.isWrite at hwrite
      unfold Request.polled
      split <;> simp_all
    exact .trans (.single (.discarded l g r s hr (by simp [hpoll]))) (finishWrite_pollActs ..)
  | lapsed h l r why seq => exact .trans (b := dropReservation h l s) (PollActs.of_same rfl rfl rfl) (finishWrite_pollActs ..)
  | finished l r o => exact finishWrite_pollActs ..
  | _ => exact .of_same rfl rfl rfl

theorem Acts.pollActs (h : Acts port net s t) : PollActs port s t := by
  induction h with
  | refl => exact .refl
  | tail _ hlast ih => exact ih.trans hlast.pollActs

/-! ## What the changes do to entries, generations and queues -/

theorem emptyPollQueue_entry (l : Link) (s : State) (i : SlotIx) : (emptyPollQueue l s).entry i
    = (s.entry i).map fun e => if ∃ item ∈ s.pollQueues.get l, item.slot = i then { e with phase := .idle } else e := by
  have hidle (items : List PollItem) (u : State) :
      (items.foldl (fun s item => s.modEntry item.slot fun e => { e with phase := .idle }) u).entry i
        = (u.entry i).map fun e => if ∃ item ∈ items, item.slot = i then { e with phase := .idle } else e := by
    induction items generalizing u with
    | nil => simp
    | cons item items ih =>
      rw [List.foldl_cons, ih, State.modEntry_entry]
      by_cases hi : i = item.slot
      · subst hi
        cases u.entry item.slot <;> simp
      · cases u.entry i <;> simp [hi, Ne.symm hi]
  exact hidle ..

theorem emptyPollQueue_generation (l : Link) (s : State) (i : SlotIx) :
    ((emptyPollQueue l s).slots.get i).generation = (s.slots.get i).generation := by
  have hidle (items : List PollItem) (u : State) :
      ((items.foldl (fun s item => s.modEntry item.slot fun e => { e with phase := .idle }) u).slots.get i).generation
        = (u.slots.get i).generation := by
    induction items generalizing u with
    | nil => rfl
    | cons item items ih => rw [List.foldl_cons, ih, State.modEntry_generation]
  exact hidle ..

theorem emptyPollQueue_pollQueues (l : Link) (s : State) : (emptyPollQueue l s).pollQueues = upd s.pollQueues l fun _ => [] := by
  have hidle (items : List PollItem) (u : State) :
      (items.foldl (fun s item => s.modEntry item.slot fun e => { e with phase := .idle }) u).pollQueues = u.pollQueues := by
    induction items generalizing u with
    | nil => rfl
    | cons item items ih => rw [List.foldl_cons, ih]; rfl
  rw [emptyPollQueue, State.modPolls_pollQueues, hidle]

/-- R13, R35: a slot is freed with its items. -/
theorem freeSlot_eq (i : SlotIx) (s : State) : freeSlot i s
    = ((s.entry i).elim s fun e => dropPoll i (nodeLink e.node) s).modSlot i fun sl =>
      { generation := sl.generation + 1, entry := none } := by
  unfold freeSlot
  cases s.entry i <;> rfl

/-- R25: a suspension does nothing, or takes the entry's items away and leaves it SUSPENDED. -/
theorem suspendEntry_cases (i : SlotIx) (s : State) : suspendEntry i s = s ∨ ∃ e, s.entry i = some e ∧ e.state ≠ .suspended ∧
    suspendEntry i s = (dropPoll i (nodeLink e.node) s).modEntry i fun e =>
      { e with state := .suspended, repoll := false, phase := if e.phase = .queued then .idle else e.phase } := by
  unfold suspendEntry
  split
  · exact .inl rfl
  · next e he =>
    split
    · exact .inl rfl
    · next hstate => exact .inr ⟨e, he, hstate, rfl⟩

/-! ## Entries in range, held and free of overlap (R2, R5, R11) -/

theorem Entry.Keeps.of_phase (e : Entry) (p : PollPhase) : e.Keeps { e with phase := p } := ⟨rfl, rfl, rfl, id, fun h => .inl ⟨h, id⟩⟩

theorem State.modEntry_keeps {i j : SlotIx} {f : Entry → Entry} {e' : Entry} (hf : ∀ e ∈ s.entry i, e.Keeps (f e))
    (he' : e' ∈ (s.modEntry i f).entry j) : ∃ e ∈ s.entry j, e.Keeps e' := by
  rw [State.modEntry_entry] at he'
  split at he'
  · next hj =>
    obtain ⟨e, he, rfl⟩ := Option.map_eq_some_iff.1 he'
    exact ⟨e, hj ▸ he, hf e he⟩
  · exact ⟨e', he', .of_phase e' e'.phase⟩

/-- An entry is there already, but for the one that is created. -/
theorem PollAct.entry (h : PollAct port s t) {j : SlotIx} {e' : Entry} (he' : e' ∈ t.entry j) :
    (∃ e ∈ s.entry j, e.Keeps e') ∨ (port.creates = true ∧ s.Fits j e' ∧ t = s.putEntry j e') := by
  have hrefl : e'.Keeps e' := .of_phase e' e'.phase
  cases h with
  | same hslots => exact .inl ⟨e', by rwa [State.entry, ← hslots], hrefl⟩
  | kept i f _ hf => exact .inl (State.modEntry_keeps (fun e he => (hf e he).toKeeps) he')
  | queued i =>
    rcases queuePoll_cases i s with heq | ⟨e, -, -, -, heq⟩ <;> rw [heq] at he'
    · exact .inl ⟨e', he', hrefl⟩
    · exact .inl (State.modEntry_keeps (s := s.modPolls _ _) (fun e _ => .of_phase e .queued) he')
  | created hnew i e _ hfit =>
    by_cases hj : j = i
    · subst hj
      obtain rfl : e = e' := by simpa using he'
      exact .inr ⟨hnew, hfit, rfl⟩
    · exact .inl ⟨e', by simpa [State.entry, State.putEntry, hj] using he', hrefl⟩
  | freed _ i =>
    have hsame : ((s.entry i).elim s fun e => dropPoll i (nodeLink e.node) s).entry j = s.entry j := by cases s.entry i <;> rfl
    rw [freeSlot_eq] at he'
    by_cases hj : j = i
    · simp [State.entry, hj] at he'
    · exact .inl ⟨e', by rw [← hsame]; simpa [State.entry, hj] using he', hrefl⟩
  | suspended i =>
    rcases suspendEntry_cases i s with heq | ⟨e, -, -, heq⟩ <;> rw [heq] at he'
    · exact .inl ⟨e', he', hrefl⟩
    · refine .inl (State.modEntry_keeps (s := dropPoll _ _ s) (fun x hx => ?_) he')
      exact ⟨rfl, rfl, rfl, id, nofun⟩
  | emptied _ l =>
    rw [emptyPollQueue_entry] at he'
    obtain ⟨e, he, rfl⟩ := Option.map_eq_some_iff.1 he'
    refine .inl ⟨e, he, ?_⟩
    split
    · exact .of_phase e .idle
    · exact .of_phase e e.phase
  | granted l hgrant =>
    cases hgrant with
    | poll g item rest e =>
      exact .inl (State.modEntry_keeps (s := s.modPolls l fun _ => rest) (fun e _ => .of_phase e .inFlight) he')
    | _ => exact .inl ⟨e', he', hrefl⟩
  | discarded l g r => exact .inl ⟨e', he', hrefl⟩
  | pollEnded l g r i e f _ _ he _ hf =>
    refine .inl (State.modEntry_keeps (s := withdraw l g s) (fun x hx => ?_) he')
    obtain rfl : e = x := by simpa [he] using (show x ∈ s.entry i from hx)
    exact hf

theorem mirrorOk_pollAct (h : PollAct port s t) (hs : s.mirrorOk) : t.mirrorOk := by
  intro i e' he'
  rcases h.entry he' with ⟨e, he, hkeeps⟩ | ⟨-, hfit, rfl⟩
  · obtain ⟨hpos, hshort, hinside, hheld, hapart⟩ := hs i e he
    rw [hkeeps.first, hkeeps.length]
    refine ⟨hpos, hshort, hinside, hkeeps.held hheld, fun j hj x' hx' hnode => ?_⟩
    rcases h.entry hx' with ⟨x, hx, hkeeps'⟩ | ⟨-, hfit, rfl⟩
    · rw [hkeeps'.first, hkeeps'.length]
      exact hapart j hj x hx (by rw [← hkeeps'.node, hnode, hkeeps.node])
    · rw [rangesShare_comm]
      exact hfit.apart i e he (by rw [← hkeeps.node, ← hnode])
  · refine ⟨hfit.pos, hfit.short, hfit.inside, hfit.held, fun j hj x hx hnode => ?_⟩
    exact hfit.apart j x (by simpa [State.entry, State.putEntry, hj] using hx) hnode

theorem PollActs.keeps {P : State → Prop} (hact : ∀ s t, PollAct port s t → P s → P t) (h : PollActs port s t) (hs : P s) : P t := by
  induction h with
  | refl => exact hs
  | tail _ hlast ih => exact hact _ _ hlast ih

end

end Sys2Proof.Machine

/-!
# Poll phases true to queue and tags (R8, R24, R35, R37)
-/

namespace Sys2Proof.Machine

set_option Elab.async false

/-! ## The invariant -/

/-- Any work is admitted: of the entries, that queued polls have them. -/
abbrev State.ItemsFit (s : State) : Prop := s.EntriesFit fun _ _ => True

/-- The poll in flight of an entry in slot `i`. -/
def State.HasPoll (s : State) (i : SlotIx) (e : Entry) : Prop :=
  ∃ g, ∃ r ∈ s.request (nodeLink e.node) g, s.pollsFor i r = true ∧ r.node = e.node ∧ r.address = e.first ∧ r.length = e.length

/-- What `pollsOk` says, but for the repoll marks. -/
structure State.PollsFit (s : State) : Prop where
  entries : s.ItemsFit
  fresh : ∀ l, ∀ item ∈ s.pollQueues.get l, item.generation = (s.slots.get item.slot).generation
  queued : ∀ i, ∀ e ∈ s.entry i, e.phase = .queued → ∃ item ∈ s.pollQueues.get (nodeLink e.node), item.slot = i
  inFlight : ∀ i, ∀ e ∈ s.entry i, e.phase = .inFlight → s.HasPoll i e

/-- A repoll mark is set only while IN_FLIGHT and not SUSPENDED; `m` names nodes whose entries are not yet suspended. -/
def State.MarksFit (s : State) (m : Node → Prop) : Prop :=
  ∀ i, ∀ e ∈ s.entry i, e.repoll = true → e.state ≠ .suspended ∧ (e.phase = .inFlight ∨ m e.node)

theorem State.pollsOk_iff {s : State} (h : s.trafficOk) : s.pollsOk ↔ s.PollsFit ∧ s.MarksFit fun _ => False := by
  obtain ⟨-, -, -, -, hentries, -, -⟩ := h
  constructor
  · rintro ⟨hfresh, hphases⟩
    exact ⟨⟨⟨fun _ _ _ _ => trivial, hentries.2⟩, hfresh, fun i e he => (hphases i e he).1, fun i e he => (hphases i e he).2.1⟩,
      fun i e he hmark => ⟨((hphases i e he).2.2 hmark).2, .inl ((hphases i e he).2.2 hmark).1⟩⟩
  · rintro ⟨hfit, hmarks⟩
    exact ⟨hfit.fresh, fun i e he => ⟨hfit.queued i e he, hfit.inFlight i e he, fun hmark =>
      ⟨(hmarks i e he hmark).2.resolve_right id, (hmarks i e he hmark).1⟩⟩⟩

section
variable {port : Scope} {s t : State}

theorem State.pollsFor_iff (s : State) (i : SlotIx) (r : Request) :
    s.pollsFor i r = true ↔ r.polled = some (i, (s.slots.get i).generation) := decide_eq_true_iff

/-! ## Marks -/

theorem State.modEntry_marks {m : Node → Prop} {i : SlotIx} {f : Entry → Entry} (h : s.MarksFit m)
    (hf : ∀ e ∈ s.entry i, (f e).repoll = true → (f e).state ≠ .suspended ∧ ((f e).phase = .inFlight ∨ m (f e).node)) :
    (s.modEntry i f).MarksFit m := by
  intro j e' he'
  rw [State.modEntry_entry] at he'
  split at he'
  · obtain ⟨e, he, rfl⟩ := Option.map_eq_some_iff.1 he'
    exact hf e he
  · exact h j e' he'

theorem marks_pollAct {m : Node → Prop} (h : PollAct port s t) (hd : port.departs = false) (hs : s.MarksFit m) : t.MarksFit m := by
  cases h with
  | same hslots => intro i e he; exact hs i e (by rwa [State.entry, ← hslots])
  | kept i f _ hf hsuspends =>
    refine State.modEntry_marks hs fun e he hmark => ?_
    rw [(hf e he).phase, (hf e he).node]
    rcases (hf e he).repoll hmark with ⟨hwas, hstate⟩ | ⟨hphase, hstate⟩
    · exact ⟨fun h => (hs i e he hwas).1 (hstate h), (hs i e he hwas).2⟩
    · exact ⟨hstate, .inl hphase⟩
  | queued i =>
    rcases queuePoll_cases i s with heq | ⟨e, he, hidle, -, heq⟩ <;> rw [heq]
    · exact hs
    · refine State.modEntry_marks (s := s.modPolls _ _) hs fun x hx hmark => ?_
      obtain rfl : e = x := by simpa [he] using (show x ∈ s.entry i from hx)
      have hwas := hs i e he hmark
      exact ⟨hwas.1, .inr (hwas.2.resolve_left (by simp [hidle]))⟩
  | created _ i e _ hfit =>
    intro j x hx hmark
    by_cases hj : j = i
    · obtain rfl : e = x := by simpa [hj] using hx
      simp [hfit.unmarked] at hmark
    · exact hs j x (by simpa [State.entry, State.putEntry, hj] using hx) hmark
  | freed _ i =>
    intro j x hx hmark
    have hsame : ((s.entry i).elim s fun e => dropPoll i (nodeLink e.node) s).entry j = s.entry j := by cases s.entry i <;> rfl
    rw [freeSlot_eq] at hx
    by_cases hj : j = i
    · simp [State.entry, hj] at hx
    · exact hs j x (by rw [← hsame]; simpa [State.entry, hj] using hx) hmark
  | suspended i =>
    rcases suspendEntry_cases i s with heq | ⟨e, -, -, heq⟩ <;> rw [heq]
    · exact hs
    · exact State.modEntry_marks (s := dropPoll _ _ s) hs fun x hx => by exact nofun
  | emptied hdeparts => simp [hd] at hdeparts
  | granted l hgrant =>
    cases hgrant with
    | poll g item rest e =>
      exact State.modEntry_marks (s := s.modPolls l fun _ => rest) hs fun x hx hmark => ⟨(hs _ x hx hmark).1, .inl rfl⟩
    | _ => exact hs
  | discarded => exact hs
  | pollEnded l g r i e f _ _ he _ _ _ hmark =>
    refine State.modEntry_marks (s := withdraw l g s) hs fun x hx hset => ?_
    obtain rfl : e = x := by simpa [he] using (show x ∈ s.entry i from hx)
    simp [hmark] at hset

/-- R38: an emptied poll queue leaves a mark where no poll is in flight, until the entry is suspended. -/
theorem emptied_marks {l : Link} (hs : s.MarksFit fun _ => False) (hitems : s.ItemsFit) :
    (emptyPollQueue l s).MarksFit fun n => nodeLink n = l := by
  intro i e' he' hmark
  rw [emptyPollQueue_entry] at he'
  obtain ⟨e, he, rfl⟩ := Option.map_eq_some_iff.1 he'
  split at hmark
  · next hitem =>
    obtain ⟨item, hmem, rfl⟩ := hitem
    obtain ⟨x, hx, hlink, -⟩ := hitems.items l item hmem
    obtain rfl : e = x := by simpa [show s.entry item.slot = some e from he] using hx
    rw [if_pos ⟨item, hmem, rfl⟩]
    exact ⟨(hs _ e he hmark).1, .inr hlink⟩
  · next hitem =>
    rw [if_neg hitem]
    exact ⟨(hs _ e he hmark).1, (hs _ e he hmark).2.imp_right False.elim⟩

/-! ## Phases -/

/-- An entry changes, but not its range or phase. -/
theorem State.PollsFit.modEntry {i : SlotIx} {f : Entry → Entry} (h : s.PollsFit) (hf : ∀ e ∈ s.entry i, e.KeepsPhase (f e))
    (hsuspends : ∀ e ∈ s.entry i, (f e).state = .suspended → e.state = .suspended) : (s.modEntry i f).PollsFit := by
  have hentry {j : SlotIx} {e' : Entry} (he' : e' ∈ (s.modEntry i f).entry j) : ∃ e ∈ s.entry j, e.KeepsPhase e' := by
    rw [State.modEntry_entry] at he'
    split at he'
    · next hj =>
      obtain ⟨e, he, rfl⟩ := Option.map_eq_some_iff.1 he'
      exact ⟨e, hj ▸ he, hf e he⟩
    · exact ⟨e', he', .of_phase e' e'.phase, rfl⟩
  refine ⟨h.entries.modEntry fun e he => ⟨(hf e he).node, hsuspends e he, fun _ _ => trivial⟩, fun l item hitem => ?_,
    fun j e' he' hphase => ?_, fun j e' he' hphase => ?_⟩
  · rw [State.modEntry_generation]
    exact h.fresh l item hitem
  · obtain ⟨e, he, hkeeps⟩ := hentry he'
    rw [hkeeps.node]
    exact h.queued j e he (hkeeps.phase ▸ hphase)
  · obtain ⟨e, he, hkeeps⟩ := hentry he'
    obtain ⟨g, r, hr, hpoll, hrange⟩ := h.inFlight j e he (hkeeps.phase ▸ hphase)
    refine ⟨g, r, ?_, ?_, ?_⟩
    · rw [hkeeps.node]
      exact hr
    · simpa only [State.pollsFor, State.modEntry_generation] using hpoll
    · rw [hkeeps.node, hkeeps.first, hkeeps.length]
      exact hrange

theorem State.modEntry_cases {i j : SlotIx} {f : Entry → Entry} {e' : Entry} (he' : e' ∈ (s.modEntry i f).entry j) :
    (j = i ∧ ∃ e ∈ s.entry i, e' = f e) ∨ (j ≠ i ∧ e' ∈ s.entry j) := by
  rw [State.modEntry_entry] at he'
  split at he'
  · next hj =>
    obtain ⟨e, he, rfl⟩ := Option.map_eq_some_iff.1 he'
    exact .inl ⟨hj, e, he, rfl⟩
  · next hj => exact .inr ⟨hj, he'⟩

/-- A request with another slot's poll, or none, is not the poll of this slot. -/
theorem State.HasPoll.of_requests {i : SlotIx} {e : Entry} (h : s.HasPoll i e)
    (hgen : (t.slots.get i).generation = (s.slots.get i).generation)
    (hrequests : ∀ g, ∀ r ∈ s.request (nodeLink e.node) g, s.pollsFor i r = true → r.node = e.node → r.address = e.first →
      r.length = e.length → r ∈ t.request (nodeLink e.node) g) : t.HasPoll i e := by
  obtain ⟨g, r, hr, hpoll, hnode, haddress, hlength⟩ := h
  exact ⟨g, r, hrequests g r hr hpoll hnode haddress hlength, by simpa only [State.pollsFor, hgen] using hpoll, hnode, haddress, hlength⟩

theorem State.PollsFit.same (h : s.PollsFit) (hslots : t.slots = s.slots) (hpolls : t.pollQueues = s.pollQueues)
    (hflights : s.SameFlights t) : t.PollsFit := by
  refine ⟨h.entries.of_view (by rw [entryView, hslots, hpolls]), fun l item hitem => ?_, fun i e he hphase => ?_, fun i e he hphase => ?_⟩
  · rw [hpolls] at hitem
    rw [hslots]
    exact h.fresh l item hitem
  · rw [hpolls]
    exact h.queued i e (by rwa [State.entry, ← hslots]) hphase
  · obtain ⟨g, r, hr, hpoll, hnode, haddress, hlength⟩ := h.inFlight i e (by rwa [State.entry, ← hslots]) hphase
    have hrel := hflights (nodeLink e.node) g
    rw [show s.request (nodeLink e.node) g = some r from hr] at hrel
    generalize hx : t.request (nodeLink e.node) g = x at hrel
    cases hrel with
    | some hsame =>
      refine ⟨g, _, hx, ?_, by rw [hsame.node, hnode], by rw [hsame.address, haddress], by rw [hsame.length, hlength]⟩
      simpa only [State.pollsFor, hsame.polled, hslots] using hpoll

theorem State.PollsFit.queuePoll (h : s.PollsFit) (i : SlotIx) : (queuePoll i s).PollsFit := by
  rcases queuePoll_cases i s with heq | ⟨e, he, -, -, heq⟩
  · rwa [heq]
  have hentries := h.entries.of_touch (fun n => by exact ⟨fun _ => trivial, fun _ => trivial⟩) (.queued i s)
  rw [heq] at hentries ⊢
  have hmem (l : Link) (item : PollItem) : item ∈ (s.modPolls (nodeLink e.node)
      (· ++ [{ slot := i, generation := (s.slots.get i).generation }])).pollQueues.get l ↔
      item ∈ s.pollQueues.get l ∨ (l = nodeLink e.node ∧ item = { slot := i, generation := (s.slots.get i).generation }) := by
    rw [State.modPolls_pollQueues, get_upd]
    split
    · next hl => simp [hl]
    · next hl => simp [hl]
  refine ⟨hentries, fun l item hitem => ?_, fun j x hx hphase => ?_, fun j x hx hphase => ?_⟩
  · rw [State.modEntry_generation]
    rcases (hmem l item).1 hitem with hitem | ⟨-, rfl⟩
    · exact h.fresh l item hitem
    · rfl
  · rcases State.modEntry_cases hx with ⟨rfl, y, hy, rfl⟩ | ⟨-, hx⟩
    · obtain rfl : e = y := by simpa [he] using (show y ∈ s.entry j from hy)
      exact ⟨_, (hmem _ _).2 (.inr ⟨rfl, rfl⟩), rfl⟩
    · obtain ⟨item, hitem, hslot⟩ := h.queued j x hx hphase
      exact ⟨item, (hmem _ _).2 (.inl hitem), hslot⟩
  · rcases State.modEntry_cases hx with ⟨rfl, y, hy, rfl⟩ | ⟨-, hx⟩
    · cases hphase
    · exact (h.inFlight j x hx hphase).of_requests (State.modEntry_generation ..) fun _ _ hr _ _ _ _ => hr

/-- The items of one slot leave the queue of its entry's link. -/
theorem State.PollsFit.dropPoll_queued (h : s.PollsFit) {i j : SlotIx} {l : Link} {e : Entry} (he : e ∈ s.entry j) (hj : j ≠ i)
    (hphase : e.phase = .queued) : ∃ item ∈ (dropPoll i l s).pollQueues.get (nodeLink e.node), item.slot = j := by
  obtain ⟨item, hitem, rfl⟩ := h.queued j e he hphase
  refine ⟨item, ?_, rfl⟩
  rw [Machine.dropPoll, State.modPolls_pollQueues, get_upd]
  split
  · next hl => exact List.mem_filter.2 ⟨hl ▸ hitem, by simpa using hj⟩
  · exact hitem

theorem State.mem_dropPoll {i : SlotIx} {l m : Link} {item : PollItem} (h : item ∈ (dropPoll i l s).pollQueues.get m) :
    item ∈ s.pollQueues.get m := by
  rw [Machine.dropPoll, State.modPolls_pollQueues, get_upd] at h
  split at h
  · next hm => exact hm ▸ List.mem_of_mem_filter h
  · exact h

theorem State.PollsFit.suspendEntry (h : s.PollsFit) (i : SlotIx) : (suspendEntry i s).PollsFit := by
  have hentries := h.entries.suspendEntry (i := i)
  rcases suspendEntry_cases i s with heq | ⟨e, he, -, heq⟩
  · rwa [heq]
  rw [heq] at hentries ⊢
  refine ⟨hentries, fun l item hitem => ?_, fun j x hx hphase => ?_, fun j x hx hphase => ?_⟩
  · rw [State.modEntry_generation]
    exact h.fresh l item (State.mem_dropPoll hitem)
  · rcases State.modEntry_cases hx with ⟨rfl, y, -, rfl⟩ | ⟨hj, hx⟩
    · simp only at hphase
      split at hphase
      · cases hphase
      · contradiction
    · exact h.dropPoll_queued hx hj hphase
  · rcases State.modEntry_cases hx with ⟨rfl, y, hy, rfl⟩ | ⟨-, hx⟩
    · have hwas : y.phase = .inFlight := by
        simp only at hphase
        split at hphase
        · cases hphase
        · exact hphase
      exact (h.inFlight j y hy hwas).of_requests (t := (Machine.dropPoll _ _ s).modEntry _ _) (State.modEntry_generation ..)
        fun _ _ hr _ _ _ _ => hr
    · exact (h.inFlight j x hx hphase).of_requests (State.modEntry_generation ..) fun _ _ hr _ _ _ _ => hr

theorem State.PollsFit.emptyPollQueue (h : s.PollsFit) (l : Link) : (emptyPollQueue l s).PollsFit := by
  have hrequests (m : Link) (g : Tag) : (Machine.emptyPollQueue l s).request m g = s.request m g := by
    simp only [State.request, emptyPollQueue_arbiters]
  have hentry {j : SlotIx} {e' : Entry} (he' : e' ∈ (Machine.emptyPollQueue l s).entry j) : ∃ e ∈ s.entry j, e'.node = e.node
      ∧ e'.first = e.first ∧ e'.length = e.length ∧ (e'.phase = .idle ∨ (e'.phase = e.phase ∧ ¬ ∃ item ∈ s.pollQueues.get l, item.slot = j)) := by
    rw [emptyPollQueue_entry] at he'
    obtain ⟨e, he, rfl⟩ := Option.map_eq_some_iff.1 he'
    refine ⟨e, he, ?_⟩
    split
    · exact ⟨rfl, rfl, rfl, .inl rfl⟩
    · next hitem => exact ⟨rfl, rfl, rfl, .inr ⟨rfl, hitem⟩⟩
  have hqueues (m : Link) : (Machine.emptyPollQueue l s).pollQueues.get m = if m = l then [] else s.pollQueues.get m := by
    rw [emptyPollQueue_pollQueues, get_upd]
  refine ⟨h.entries.emptyPollQueue, fun m item hitem => ?_, fun j e' he' hphase => ?_, fun j e' he' hphase => ?_⟩
  · rw [hqueues] at hitem
    split at hitem
    · cases hitem
    · rw [emptyPollQueue_generation]
      exact h.fresh m item hitem
  · obtain ⟨e, he, hnode, -, -, hidle | ⟨hkeeps, hno⟩⟩ := hentry he'
    · simp [hidle] at hphase
    · obtain ⟨item, hitem, hslot⟩ := h.queued j e he (hkeeps ▸ hphase)
      have hl : nodeLink e'.node ≠ l := fun hl => hno ⟨item, by rwa [← hl, hnode], hslot⟩
      refine ⟨item, ?_, hslot⟩
      rw [hqueues, if_neg hl, hnode]
      exact hitem
  · obtain ⟨e, he, hnode, hfirst, hlength, hidle | ⟨hkeeps, -⟩⟩ := hentry he'
    · simp [hidle] at hphase
    · obtain ⟨g, r, hr, hpoll, hrange⟩ := h.inFlight j e he (hkeeps ▸ hphase)
      refine ⟨g, r, ?_, ?_, ?_⟩
      · rw [hrequests, hnode]
        exact hr
      · simpa only [State.pollsFor, emptyPollQueue_generation] using hpoll
      · rw [hnode, hfirst, hlength]
        exact hrange

theorem State.PollsFit.freeSlot (h : s.PollsFit) (i : SlotIx) : (freeSlot i s).PollsFit := by
  have hentries := h.entries.freeSlot (i := i)
  have hslots (u : State) (j : SlotIx) (hj : j ≠ i) :
      (u.modSlot i fun sl => { generation := sl.generation + 1, entry := none }).slots.get j = u.slots.get j := by simp [hj]
  have hnone {u : State} {e : Entry} (he : e ∈ (u.modSlot i fun sl => { generation := sl.generation + 1, entry := none }).entry i) : False := by
    simp [State.entry] at he
  rw [freeSlot_eq] at hentries ⊢
  have hitems {l : Link} {item : PollItem} (hitem : item ∈ ((s.entry i).elim s fun e => dropPoll i (nodeLink e.node) s).pollQueues.get l) :
      item ∈ s.pollQueues.get l := by
    cases he : s.entry i with
    | none => rwa [he] at hitem
    | some e => exact State.mem_dropPoll (by rwa [he] at hitem)
  have hsame : ((s.entry i).elim s fun e => dropPoll i (nodeLink e.node) s).slots = s.slots := by cases s.entry i <;> rfl
  have hentry {j : SlotIx} {e : Entry} (he : e ∈ (((s.entry i).elim s fun e => dropPoll i (nodeLink e.node) s).modSlot i fun sl =>
      { generation := sl.generation + 1, entry := none }).entry j) : j ≠ i ∧ e ∈ s.entry j := by
    by_cases hj : j = i
    · exact (hnone (hj ▸ he)).elim
    · rw [State.entry, hslots _ j hj, hsame] at he
      exact ⟨hj, he⟩
  refine ⟨hentries, fun l item hitem => ?_, fun j e he hphase => ?_, fun j e he hphase => ?_⟩
  · obtain ⟨e, he, -⟩ := hentries.items l item hitem
    rw [hslots _ _ (hentry he).1, hsame]
    exact h.fresh l item (hitems hitem)
  · obtain ⟨hj, he⟩ := hentry he
    cases hi : s.entry i with
    | none => exact h.queued j e he hphase
    | some x => exact h.dropPoll_queued he hj hphase
  · obtain ⟨hj, he⟩ := hentry he
    refine (h.inFlight j e he hphase).of_requests (by rw [hslots _ j hj, hsame]) fun g r hr _ _ _ _ => ?_
    cases s.entry i <;> exact hr

theorem State.ItemsFit.putEntry {i : SlotIx} {e : Entry} (h : s.ItemsFit) (hfree : s.entry i = none) : (s.putEntry i e).ItemsFit := by
  refine ⟨fun _ _ _ _ => trivial, fun l item hitem => ?_⟩
  obtain ⟨x, hx, hlink⟩ := h.items l item hitem
  have hslot : item.slot ≠ i := by
    rintro rfl
    simp [hfree] at hx
  exact ⟨x, by simpa [State.entry, State.putEntry, hslot] using hx, hlink⟩

theorem State.PollsFit.putEntry {i : SlotIx} {e : Entry} (h : s.PollsFit) (hfit : s.Fits i e) : (s.putEntry i e).PollsFit := by
  have hentry {j : SlotIx} {x : Entry} (hx : x ∈ (s.putEntry i e).entry j) : (j = i ∧ x = e) ∨ x ∈ s.entry j := by
    by_cases hj : j = i
    · subst hj
      exact .inl ⟨rfl, by simpa [eq_comm] using hx⟩
    · exact .inr (by simpa [State.entry, State.putEntry, hj] using hx)
  refine ⟨h.entries.putEntry hfit.free, fun l item hitem => ?_, fun j x hx hphase => ?_, fun j x hx hphase => ?_⟩
  · rw [State.putEntry_generation]
    exact h.fresh l item hitem
  · rcases hentry hx with ⟨-, rfl⟩ | hx
    · simp [hfit.idle] at hphase
    · exact h.queued j x hx hphase
  · rcases hentry hx with ⟨-, rfl⟩ | hx
    · simp [hfit.idle] at hphase
    · exact (h.inFlight j x hx hphase).of_requests (State.putEntry_generation ..) fun _ _ hr _ _ _ _ => hr

/-- A granted request takes a free tag, so those in flight stay. -/
theorem State.mem_grantTag {l m : Link} {g u : Tag} {c : RequestClass} {r x : Request} (hfree : (s.arbiters.get l).lowestFree = some g)
    (hx : x ∈ s.request m u) : x ∈ (grantTag l g c r s).request m u := by
  rw [grantTag_request, if_neg]
  · exact hx
  · rintro ⟨rfl, rfl⟩
    have hnone : s.request m u = none := (lowestFree_some hfree).1
    simp [hnone] at hx

/-- A grant of other work. -/
theorem State.PollsFit.grantTag {l : Link} {g : Tag} {c : RequestClass} {r : Request} (h : s.PollsFit)
    (hfree : (s.arbiters.get l).lowestFree = some g) : (grantTag l g c r s).PollsFit :=
  ⟨h.entries.of_view rfl, h.fresh, h.queued, fun i e he hphase =>
    (h.inFlight i e he hphase).of_requests rfl fun _ _ hx _ _ _ _ => State.mem_grantTag hfree hx⟩

/-- R115: the head of a poll queue is granted. -/
theorem State.PollsFit.grantPoll {l : Link} {g : Tag} {item : PollItem} {rest : List PollItem} {e : Entry} (h : s.PollsFit)
    (hfree : (s.arbiters.get l).lowestFree = some g) (hpolls : s.pollQueues.get l = item :: rest) (he : s.entry item.slot = some e) :
    (Machine.grantTag l g .read (newRequest (.poll item.slot item.generation e.epoch) e.node e.first e.length)
      ((s.modPolls l fun _ => rest).modEntry item.slot fun e => { e with phase := .inFlight })).PollsFit := by
  have hmem : item ∈ s.pollQueues.get l := hpolls ▸ List.mem_cons_self
  have hlink : nodeLink e.node = l := by
    obtain ⟨x, hx, hlink, -⟩ := h.entries.items l item hmem
    obtain rfl : e = x := by simpa [he] using hx
    exact hlink
  have hrest : (s.modPolls l fun _ => rest).ItemsFit :=
    h.entries.modPolls fun x hx => h.entries.items l x (hpolls ▸ List.mem_cons_of_mem _ hx)
  have hqueues (m : Link) : (s.modPolls l fun _ => rest).pollQueues.get m = if m = l then rest else s.pollQueues.get m := by
    rw [State.modPolls_pollQueues, get_upd]
  have hsub {m : Link} {x : PollItem} (hx : x ∈ (s.modPolls l fun _ => rest).pollQueues.get m) : x ∈ s.pollQueues.get m := by
    rw [hqueues] at hx
    split at hx
    · next hm => exact hm ▸ hpolls ▸ List.mem_cons_of_mem _ hx
    · exact hx
  refine ⟨(hrest.modEntry_phase (p := fun _ => .inFlight)).of_view rfl, fun m x hx => ?_, fun j x hx hphase => ?_, fun j x hx hphase => ?_⟩
  · exact (h.fresh m x (hsub hx)).trans (State.modEntry_generation ..).symm
  · rcases State.modEntry_cases (s := s.modPolls l fun _ => rest) hx with ⟨rfl, y, -, rfl⟩ | ⟨hj, hx⟩
    · cases hphase
    · obtain ⟨y, hy, rfl⟩ := h.queued j x hx hphase
      refine ⟨y, ?_, rfl⟩
      refine (hqueues (nodeLink x.node)) ▸ ?_
      split
      · next hm =>
        rw [hm, hpolls] at hy
        exact (List.mem_cons.1 hy).resolve_left fun heq => hj (by rw [heq])
      · exact hy
  · rcases State.modEntry_cases (s := s.modPolls l fun _ => rest) hx with ⟨rfl, y, hy, rfl⟩ | ⟨-, hx⟩
    · obtain rfl : e = y := by simpa [he] using (show y ∈ s.entry item.slot from hy)
      refine ⟨g, _, by rw [grantTag_request, if_pos ⟨hlink, rfl⟩]; rfl, (State.pollsFor_iff ..).2 ?_, rfl, rfl, rfl⟩
      exact congrArg (fun x => some (item.slot, x)) ((h.fresh l item hmem).trans (State.modEntry_generation ..).symm)
    · exact (h.inFlight j x hx hphase).of_requests
        (t := Machine.grantTag l g _ _ ((s.modPolls l fun _ => rest).modEntry item.slot fun e => { e with phase := .inFlight }))
        (State.modEntry_generation ..) fun _ _ hr _ _ _ _ =>
        State.mem_grantTag (s := (s.modPolls l fun _ => rest).modEntry item.slot fun e => { e with phase := .inFlight }) hfree hr

theorem State.PollsFit.grant {l : Link} (hgrant : Grant l s t) (h : s.PollsFit) : t.PollsFit := by
  cases hgrant with
  | none => exact h
  | write g r hfree =>
    exact State.PollsFit.grantTag (s := sendWrite l r s) (h.same rfl rfl (.of_arbiters rfl)) hfree
  | ident g n rest hfree =>
    exact State.PollsFit.grantTag (s := s.modArbiter l fun a => { a with idents := rest })
      (h.same rfl rfl (.modArbiter fun u => sameWork_refl _ u)) (by simpa [Arbiter.lowestFree, Arbiter.isFree] using hfree)
  | fetch g f rest hfree =>
    exact State.PollsFit.grantTag (s := s.modArbiter l fun a => { a with fetches := rest })
      (h.same rfl rfl (.modArbiter fun u => sameWork_refl _ u)) (by simpa [Arbiter.lowestFree, Arbiter.isFree] using hfree)
  | poll g item rest e hfree _ _ _ hpolls he => exact h.grantPoll hfree hpolls he
  | dropped item rest hpolls he =>
    obtain ⟨e, hsome, -⟩ := h.entries.items l item (hpolls ▸ List.mem_cons_self)
    simp [he] at hsome

/-- A request that ends is not the poll of an entry IN_FLIGHT, or ends that. -/
theorem State.PollsFit.withdraw_hasPoll {l : Link} {g : Tag} {r : Request} {i : SlotIx} {e : Entry} (h : s.PollsFit)
    (hr : s.request l g = some r) (he : e ∈ s.entry i) (hphase : e.phase = .inFlight)
    (hother : s.pollsFor i r = true → pollApplies s i (s.slots.get i).generation r.node r.address r.length = false) :
    (withdraw l g s).HasPoll i e := by
  refine (h.inFlight i e he hphase).of_requests rfl fun u x hx hpoll hnode haddress hlength => ?_
  rw [withdraw_request, if_neg]
  · exact hx
  · rintro ⟨hl, rfl⟩
    obtain rfl : r = x := by simpa [hl, hr] using hx
    have hno := hother hpoll
    rw [hnode, haddress, hlength, pollApplies, show s.entry i = some e from he] at hno
    simp at hno

theorem polls_pollAct (h : PollAct port s t) (hs : s.PollsFit) : t.PollsFit := by
  cases h with
  | same hslots hpolls hflights => exact hs.same hslots hpolls hflights
  | kept i f _ hf hsuspends => exact hs.modEntry hf hsuspends
  | queued i => exact hs.queuePoll i
  | created _ i e _ hfit => exact hs.putEntry hfit
  | freed _ i => exact hs.freeSlot i
  | suspended i => exact hs.suspendEntry i
  | emptied _ l => exact hs.emptyPollQueue l
  | granted l hgrant => exact hs.grant hgrant
  | discarded l g r _ hr hpoll =>
    exact ⟨hs.entries.of_view rfl, hs.fresh, hs.queued, fun i e he hphase =>
      hs.withdraw_hasPoll hr he hphase fun hfor => hpoll i _ ((State.pollsFor_iff ..).1 hfor)⟩
  | pollEnded l g r i e f _ hr he hpoll hf hidle hmark hsuspends =>
    have hx {x : Entry} (hx : x ∈ (withdraw l g s).entry i) : x = e := by
      simpa [he, eq_comm] using (show x ∈ s.entry i from hx)
    refine ⟨State.EntriesFit.modEntry (s := withdraw l g s) (hs.entries.of_view rfl) fun x hmem => ?_, fun m item hitem => ?_,
      fun j x hmem hphase => ?_, fun j x hmem hphase => ?_⟩
    · rw [hx hmem]
      exact ⟨hf.node, hsuspends, fun _ _ => trivial⟩
    · exact (hs.fresh m item hitem).trans (State.modEntry_generation ..).symm
    · rcases State.modEntry_cases hmem with ⟨rfl, y, hy, rfl⟩ | ⟨-, hmem⟩
      · rw [hx hy, hidle] at hphase
        cases hphase
      · exact hs.queued j x hmem hphase
    · rcases State.modEntry_cases hmem with ⟨rfl, y, hy, rfl⟩ | ⟨hj, hmem⟩
      · rw [hx hy, hidle] at hphase
        cases hphase
      · refine (hs.withdraw_hasPoll hr hmem hphase fun hfor => ?_).of_requests (State.modEntry_generation ..) fun _ _ hr _ _ _ _ => hr
        rw [State.pollsFor_iff, hpoll] at hfor
        exact absurd (congrArg Prod.fst (Option.some.inj hfor)).symm hj

/-! ## Every step -/

/-- Polls and marks, of states in accord with presence. -/
theorem pollsOk_move (h : Move port s t) (hd : port.departs = false) (htraffic : s.trafficOk) (hs : s.pollsOk) : t.pollsOk := by
  have htraffic' := trafficOk_move h htraffic
  obtain ⟨hfit, hmarks⟩ := (State.pollsOk_iff htraffic).1 hs
  refine (State.pollsOk_iff htraffic').2 ?_
  rcases h.acts_or_departed with hacts | ⟨l, next, why, v, u, heq, hfirst, hrest⟩
  · exact ⟨hacts.pollActs.keeps (fun _ _ => polls_pollAct) hfit, hacts.pollActs.keeps (fun _ _ h => marks_pollAct h hd) hmarks⟩
  · have hfit' := hfirst.pollActs.keeps (fun _ _ => polls_pollAct) hfit
    have hmarks' := hfirst.pollActs.keeps (fun _ _ h => marks_pollAct h hd) hmarks
    refine ⟨hrest.pollActs.keeps (fun _ _ => polls_pollAct) (hfit'.emptyPollQueue l), fun i e he hmark => ?_⟩
    obtain ⟨hstate, hphase⟩ := hrest.pollActs.keeps (fun _ _ h => marks_pollAct h hd) (emptied_marks hmarks' hfit'.entries) i e he hmark
    refine ⟨hstate, .inl (hphase.resolve_right fun hl => ?_)⟩
    have hpresent := htraffic'.2.2.2.2.1.1 i e he hstate
    have hunknown : t.presence e.node = .unknown := by
      rw [heq, State.presence, (departLink_records l next why v).1, if_pos hl]
      rfl
    rw [hunknown] at hpresent
    cases hpresent

theorem polls_traffic_move (h : Move port s t) (hd : port.departs = false) (hs : s.trafficOk ∧ s.pollsOk) : t.trafficOk ∧ t.pollsOk :=
  ⟨trafficOk_move h hs.1, pollsOk_move h hd hs.1 hs.2⟩

end

end Sys2Proof.Machine

/-!
# One item for a QUEUED entry, one poll for an entry IN_FLIGHT (R4, R8, R35)
-/

namespace Sys2Proof.Machine

set_option Elab.async false

/-! ## Counting items and polls -/

/-- The items of slot `i` in the poll queue of link `l`. -/
def State.itemsOn (s : State) (l : Link) (i : SlotIx) : Nat := (s.pollQueues.get l).countP fun item => decide (item.slot = i)

/-- The items of slot `i` in both poll queues. -/
def State.itemsOf (s : State) (i : SlotIx) : Nat := s.itemsOn 0 i + s.itemsOn 1 i

/-- The polls in flight with the slot's present generation. -/
def State.pollsOf (s : State) (i : SlotIx) : Nat := s.inFlight (s.pollsFor i) 0 + s.inFlight (s.pollsFor i) 1

/-- The poll phase of the entry in slot `i`. -/
def State.phaseAt (s : State) (i : SlotIx) : Option PollPhase := (s.entry i).map Entry.phase

/-- What `pollsCounted` says of one slot. -/
structure State.Counted (s : State) (i : SlotIx) : Prop where
  items : s.itemsOf i = if s.phaseAt i = some .queued then 1 else 0
  polls : s.pollsOf i = if s.phaseAt i = some .inFlight then 1 else 0

theorem State.any_phase (s : State) (i : SlotIx) (p : PollPhase) :
    ((s.entry i).any fun e => decide (e.phase = p)) = decide (s.phaseAt i = some p) := by
  unfold State.phaseAt
  cases s.entry i <;> simp

theorem State.pollsCounted_iff (s : State) : s.pollsCounted ↔ ∀ i, s.Counted i := by
  have hpolls (i : SlotIx) : ((List.finRange 2).map fun l =>
      ((List.finRange 8).filter fun t => (s.request l t).any (s.pollsFor i)).length).sum = s.pollsOf i := by
    rw [show List.finRange 2 = [0, 1] from rfl]
    simp only [List.map_cons, List.map_nil, List.sum_cons, List.sum_nil, Nat.add_zero]
    rfl
  refine forall_congr' fun i => ?_
  rw [hpolls, State.any_phase, State.any_phase, List.filter_append, List.length_append, ← List.countP_eq_length_filter,
    ← List.countP_eq_length_filter]
  simp only [decide_eq_true_eq]
  exact ⟨fun h => ⟨h.1, h.2⟩, fun h => ⟨h.1, h.2⟩⟩

theorem link_cases (l : Link) : l = 0 ∨ l = 1 := by revert l; decide

section
variable {port : Scope} {s t : State} {i : SlotIx}

theorem State.Counted.of_eq (h : s.Counted i) (hitems : t.itemsOf i = s.itemsOf i) (hpolls : t.pollsOf i = s.pollsOf i)
    (hphase : t.phaseAt i = s.phaseAt i) : t.Counted i := ⟨by rw [hitems, hphase, h.items], by rw [hpolls, hphase, h.polls]⟩

/-- Neither QUEUED nor IN_FLIGHT, with nothing queued or in flight. -/
theorem State.Counted.of_zero (hitems : s.itemsOf i = 0) (hpolls : s.pollsOf i = 0) (hqueued : s.phaseAt i ≠ some .queued)
    (hflight : s.phaseAt i ≠ some .inFlight) : s.Counted i := ⟨by rw [hitems, if_neg hqueued], by rw [hpolls, if_neg hflight]⟩

theorem State.Counted.zero (h : s.Counted i) (hqueued : s.phaseAt i ≠ some .queued) (hflight : s.phaseAt i ≠ some .inFlight) :
    s.itemsOf i = 0 ∧ s.pollsOf i = 0 := ⟨by rw [h.items, if_neg hqueued], by rw [h.polls, if_neg hflight]⟩

theorem State.Counted.queued (h : s.Counted i) (hpos : s.itemsOf i ≠ 0) :
    s.phaseAt i = some .queued ∧ s.itemsOf i = 1 ∧ s.pollsOf i = 0 := by
  have hphase : s.phaseAt i = some .queued := by
    by_contra hphase
    exact hpos (by rw [h.items, if_neg hphase])
  exact ⟨hphase, by rw [h.items, if_pos hphase], by rw [h.polls, if_neg (by simp [hphase])]⟩

theorem State.Counted.inFlight (h : s.Counted i) (hpos : s.pollsOf i ≠ 0) :
    s.phaseAt i = some .inFlight ∧ s.itemsOf i = 0 ∧ s.pollsOf i = 1 := by
  have hphase : s.phaseAt i = some .inFlight := by
    by_contra hphase
    exact hpos (by rw [h.polls, if_neg hphase])
  exact ⟨hphase, by rw [h.items, if_neg (by simp [hphase])], by rw [h.polls, if_pos hphase]⟩

theorem State.itemsOf_of_pollQueues (h : t.pollQueues = s.pollQueues) : t.itemsOf i = s.itemsOf i := by
  simp only [State.itemsOf, State.itemsOn, h]

theorem State.itemsOf_modPolls (l : Link) (f : List PollItem → List PollItem) (s : State) (i : SlotIx) :
    (s.modPolls l f).itemsOf i + s.itemsOn l i = s.itemsOf i + (f (s.pollQueues.get l)).countP fun item => decide (item.slot = i) := by
  have hl := link_cases l
  have hother : ((1 : Link) = 0) = False := by simp
  rcases hl with rfl | rfl <;> simp [State.itemsOf, State.itemsOn, hother] <;> omega

theorem State.itemsOn_le (s : State) (l : Link) (i : SlotIx) : s.itemsOn l i ≤ s.itemsOf i := by
  have hl := link_cases l
  rcases hl with rfl | rfl <;> simp [State.itemsOf]

theorem State.itemsOf_eq_zero : s.itemsOf i = 0 ↔ ∀ l, ∀ item ∈ s.pollQueues.get l, item.slot ≠ i := by
  have hon (l : Link) : s.itemsOn l i = 0 ↔ ∀ item ∈ s.pollQueues.get l, item.slot ≠ i := by
    simp [State.itemsOn, List.countP_eq_zero]
  rw [State.itemsOf, Nat.add_eq_zero_iff, hon, hon]
  refine ⟨fun h l => ?_, fun h => ⟨h 0, h 1⟩⟩
  have hl := link_cases l
  rcases hl with rfl | rfl
  · exact h.1
  · exact h.2

theorem State.pollsOf_eq_zero : s.pollsOf i = 0 ↔ ∀ l g, ∀ r ∈ s.request l g, s.pollsFor i r = false := by
  constructor
  · intro h l g r hr
    rw [State.pollsOf, Nat.add_eq_zero_iff] at h
    by_contra hp
    have hpos := State.inFlight_pos hr (by simpa using hp)
    have hl := link_cases l
    rcases hl with rfl | rfl
    · omega
    · omega
  · intro h
    have hnone (l : Link) : s.inFlight (s.pollsFor i) l = 0 := by
      by_contra hpos
      obtain ⟨g, r, hr, hp⟩ := State.exists_of_inFlight hpos
      simp [h l g r hr] at hp
    rw [State.pollsOf, hnone, hnone]

theorem State.pollsFor_congr (h : (t.slots.get i).generation = (s.slots.get i).generation) : t.pollsFor i = s.pollsFor i :=
  funext fun r => by simp only [State.pollsFor, h]

theorem State.pollsOf_of_flights (hgen : (t.slots.get i).generation = (s.slots.get i).generation) (h : s.SameFlights t) :
    t.pollsOf i = s.pollsOf i := by
  have hflight (l : Link) : t.inFlight (s.pollsFor i) l = s.inFlight (s.pollsFor i) l := State.inFlight_congr fun g => by
    have hrel := h l g
    generalize s.request l g = x, t.request l g = y at hrel
    cases hrel with
    | none => rfl
    | some hsame => simp [State.pollsFor, hsame.polled]
  rw [State.pollsOf, State.pollsOf, State.pollsFor_congr hgen, hflight, hflight]

theorem State.pollsOf_of_arbiters (hgen : (t.slots.get i).generation = (s.slots.get i).generation) (h : t.arbiters = s.arbiters) :
    t.pollsOf i = s.pollsOf i := State.pollsOf_of_flights hgen (.of_arbiters h)

theorem State.pollsOf_grantTag {l : Link} {g : Tag} {c : RequestClass} {r : Request} (hfree : (s.arbiters.get l).lowestFree = some g) :
    (grantTag l g c r s).pollsOf i = s.pollsOf i + (s.pollsFor i r).toNat := by
  have hflight := grantTag_inFlight (lowestFree_some hfree).1 c r (s.pollsFor i)
  have hl := link_cases l
  rw [State.pollsOf, State.pollsOf, show (grantTag l g c r s).pollsFor i = s.pollsFor i from rfl, hflight, hflight]
  rcases hl with rfl | rfl <;> simp <;> omega

theorem State.pollsOf_withdraw {l : Link} {g : Tag} {r : Request} (hr : s.request l g = some r) :
    (withdraw l g s).pollsOf i + (s.pollsFor i r).toNat = s.pollsOf i := by
  have hflight := withdraw_inFlight hr (s.pollsFor i)
  have hl := link_cases l
  rw [State.pollsOf, State.pollsOf, show (withdraw l g s).pollsFor i = s.pollsFor i from rfl, ← hflight 0, ← hflight 1]
  rcases hl with rfl | rfl <;> simp <;> omega

theorem State.phaseAt_modEntry_of_ne {j : SlotIx} {f : Entry → Entry} (hj : i ≠ j) : (s.modEntry j f).phaseAt i = s.phaseAt i := by
  rw [State.phaseAt, State.phaseAt, State.modEntry_entry_ne _ _ hj]

theorem State.phaseAt_modEntry {f : Entry → Entry} {e : Entry} (he : s.entry i = some e) :
    (s.modEntry i f).phaseAt i = some (f e).phase := by
  rw [State.phaseAt, State.modEntry_entry_self, he]
  rfl

theorem State.phaseAt_of_some {e : Entry} (he : s.entry i = some e) : s.phaseAt i = some e.phase := by rw [State.phaseAt, he]; rfl

/-! ## Each change keeps the count -/

theorem State.Counted.queuePoll (h : s.Counted i) (j : SlotIx) : (queuePoll j s).Counted i := by
  rcases queuePoll_cases j s with heq | ⟨e, he, hidle, -, heq⟩ <;> rw [heq]
  · exact h
  generalize hu : s.modPolls (nodeLink e.node) (· ++ [{ slot := j, generation := (s.slots.get j).generation }]) = u
  have hentry : u.entry j = some e := by rw [← hu]; exact he
  have hitems : u.itemsOf i = s.itemsOf i + if j = i then 1 else 0 := by
    have hadded := State.itemsOf_modPolls (nodeLink e.node) (· ++ [{ slot := j, generation := (s.slots.get j).generation }]) s i
    rw [hu, List.countP_append, ← State.itemsOn, List.countP_singleton] at hadded
    simp only [decide_eq_true_eq] at hadded
    omega
  have hsame : (u.modEntry j fun e => { e with phase := .queued }).itemsOf i = u.itemsOf i := State.itemsOf_of_pollQueues rfl
  have hpolls : (u.modEntry j fun e => { e with phase := .queued }).pollsOf i = s.pollsOf i :=
    State.pollsOf_of_arbiters (by rw [State.modEntry_generation, ← hu]; rfl) (by rw [← hu]; rfl)
  by_cases hi : i = j
  · subst hi
    have hphase := State.phaseAt_of_some he
    have hzero := h.zero (by simp [hphase, hidle]) (by simp [hphase, hidle])
    have hnow := State.phaseAt_modEntry (f := fun e => { e with phase := .queued }) hentry
    exact ⟨by rw [hsame, hitems, hzero.1, if_pos rfl, if_pos hnow], by rw [hpolls, hzero.2, if_neg (by simp [hnow])]⟩
  · refine h.of_eq (by rw [hsame, hitems, if_neg (Ne.symm hi), Nat.add_zero]) hpolls ?_
    rw [State.phaseAt_modEntry_of_ne hi, ← hu]
    rfl

theorem State.itemsOf_dropPoll_of_ne {j : SlotIx} {l : Link} (hi : i ≠ j) : (dropPoll j l s).itemsOf i = s.itemsOf i := by
  have hitems := State.itemsOf_modPolls l (·.filter fun item => item.slot ≠ j) s i
  rw [List.countP_filter] at hitems
  have hsame : (s.pollQueues.get l).countP (fun item => decide (item.slot = i) && decide (item.slot ≠ j)) = s.itemsOn l i :=
    List.countP_congr fun item _ => by
      simp only [Bool.and_eq_true, decide_eq_true_eq, and_iff_left_iff_imp]
      rintro rfl
      exact hi
  rw [hsame] at hitems
  exact Nat.add_right_cancel hitems

theorem State.Counted.suspendEntry (h : s.Counted i) (hfit : s.ItemsFit) (j : SlotIx) : (suspendEntry j s).Counted i := by
  rcases suspendEntry_cases j s with heq | ⟨e, he, -, heq⟩ <;> rw [heq]
  · exact h
  have hpolls : ((dropPoll j (nodeLink e.node) s).modEntry j fun e => { e with state := .suspended, repoll := false, phase := if e.phase = .queued then .idle else e.phase }).pollsOf i
      = s.pollsOf i := State.pollsOf_of_arbiters (State.modEntry_generation ..) rfl
  by_cases hi : i = j
  · subst hi
    have hnow := State.phaseAt_modEntry (s := dropPoll i (nodeLink e.node) s) (f := fun e =>
      { e with state := .suspended, repoll := false, phase := if e.phase = .queued then .idle else e.phase }) he
    have hitems : (dropPoll i (nodeLink e.node) s).itemsOf i = 0 := State.itemsOf_eq_zero.2 fun l item => hfit.dropPoll_items he
    have hphase := State.phaseAt_of_some he
    refine ⟨?_, ?_⟩
    · rw [hnow, if_neg]
      · exact hitems
      · by_cases hqueued : e.phase = .queued
        · simp [hqueued]
        · simp [hqueued]
    · rw [hpolls, hnow, h.polls, hphase]
      by_cases hqueued : e.phase = .queued
      · simp [hqueued]
      · simp [hqueued]
  · exact h.of_eq (State.itemsOf_dropPoll_of_ne hi) hpolls (State.phaseAt_modEntry_of_ne hi)

theorem State.Counted.emptyPollQueue (h : s.Counted i) (l : Link) : (emptyPollQueue l s).Counted i := by
  have hpolls : (Machine.emptyPollQueue l s).pollsOf i = s.pollsOf i :=
    State.pollsOf_of_arbiters (emptyPollQueue_generation ..) (emptyPollQueue_arbiters ..)
  have hitems : (Machine.emptyPollQueue l s).itemsOf i + s.itemsOn l i = s.itemsOf i := by
    rw [State.itemsOf_of_pollQueues (t := Machine.emptyPollQueue l s) (s := s.modPolls l fun _ => []) (emptyPollQueue_pollQueues l s)]
    exact State.itemsOf_modPolls l (fun _ => []) s i
  by_cases hitem : ∃ item ∈ s.pollQueues.get l, item.slot = i
  · have hpos : s.itemsOn l i ≠ 0 := by simpa [State.itemsOn, List.countP_eq_zero] using hitem
    have hle := s.itemsOn_le l i
    obtain ⟨hphase, hone, hzero⟩ := h.queued (by omega)
    have hnow : (Machine.emptyPollQueue l s).phaseAt i = some .idle := by
      rw [State.phaseAt, Option.map_eq_some_iff] at hphase ⊢
      obtain ⟨e, he, -⟩ := hphase
      exact ⟨{ e with phase := .idle }, by rw [emptyPollQueue_entry, he, Option.map_some, if_pos hitem], rfl⟩
    exact .of_zero (by omega) (hpolls.trans hzero) (by simp [hnow]) (by simp [hnow])
  · have hzero : s.itemsOn l i = 0 := by simpa [State.itemsOn, List.countP_eq_zero] using hitem
    refine h.of_eq (by omega) hpolls ?_
    simp only [State.phaseAt, emptyPollQueue_entry, if_neg hitem, Option.map_map]
    rfl

theorem State.Counted.grantPoll {l : Link} {g : Tag} {item : PollItem} {rest : List PollItem} {e : Entry} (h : s.Counted i)
    (hfresh : item.generation = (s.slots.get item.slot).generation) (hfree : (s.arbiters.get l).lowestFree = some g)
    (hpolls : s.pollQueues.get l = item :: rest) (he : s.entry item.slot = some e) :
    (grantTag l g .read (newRequest (.poll item.slot item.generation e.epoch) e.node e.first e.length)
      ((s.modPolls l fun _ => rest).modEntry item.slot fun e => { e with phase := .inFlight })).Counted i := by
  generalize hu : ((s.modPolls l fun _ => rest).modEntry item.slot fun e => { e with phase := .inFlight }) = u
  have hgen (j : SlotIx) : (u.slots.get j).generation = (s.slots.get j).generation := by rw [← hu, State.modEntry_generation]; rfl
  have hfree' : (u.arbiters.get l).lowestFree = some g := by rw [← hu]; exact hfree
  have hgranted := State.pollsOf_grantTag (i := i) (c := .read)
    (r := newRequest (.poll item.slot item.generation e.epoch) e.node e.first e.length) hfree'
  have hbefore : u.pollsOf i = s.pollsOf i := State.pollsOf_of_arbiters (hgen i) (by rw [← hu]; rfl)
  have hfor : u.pollsFor i (newRequest (.poll item.slot item.generation e.epoch) e.node e.first e.length) = decide (i = item.slot) := by
    refine Bool.eq_iff_iff.2 ((State.pollsFor_iff ..).trans ?_)
    rw [decide_eq_true_eq, hgen, show (newRequest (.poll item.slot item.generation e.epoch) e.node e.first e.length).polled
      = some (item.slot, item.generation) from rfl, hfresh]
    constructor
    · intro heq
      exact (congrArg Prod.fst (Option.some.inj heq)).symm
    · rintro rfl
      rfl
  have hitems : u.itemsOf i + (if item.slot = i then 1 else 0) = s.itemsOf i := by
    have hmod := State.itemsOf_modPolls l (fun _ => rest) s i
    have hsame : u.itemsOf i = (s.modPolls l fun _ => rest).itemsOf i := State.itemsOf_of_pollQueues (by rw [← hu]; rfl)
    rw [State.itemsOn, hpolls, List.countP_cons] at hmod
    simp only [decide_eq_true_eq] at hmod
    omega
  rw [hfor, hbefore] at hgranted
  have hphase : (Machine.grantTag l g .read (newRequest (.poll item.slot item.generation e.epoch) e.node e.first e.length) u).phaseAt i
    = u.phaseAt i := rfl
  have hsame : (Machine.grantTag l g .read (newRequest (.poll item.slot item.generation e.epoch) e.node e.first e.length) u).itemsOf i
    = u.itemsOf i := rfl
  generalize Machine.grantTag l g .read (newRequest (.poll item.slot item.generation e.epoch) e.node e.first e.length) u = v at *
  by_cases hi : i = item.slot
  · subst hi
    simp only [if_true] at hitems
    obtain ⟨-, hone, hzero⟩ := h.queued (by omega)
    have hnow : v.phaseAt item.slot = some .inFlight := by
      rw [hphase, ← hu]
      exact State.phaseAt_modEntry (s := s.modPolls l fun _ => rest) he
    refine ⟨?_, by rw [if_pos hnow, hgranted, hzero]; simp⟩
    rw [hsame, hnow]
    simp only [Option.some.injEq, reduceCtorEq, if_false]
    omega
  · rw [if_neg (Ne.symm hi)] at hitems
    refine h.of_eq (hsame.trans hitems) (by rw [hgranted]; simp [hi]) ?_
    rw [hphase, ← hu, State.phaseAt_modEntry_of_ne hi]
    rfl

/-- A grant of other work. -/
theorem State.Counted.grantTag {l : Link} {g : Tag} {c : RequestClass} {r : Request} (h : s.Counted i)
    (hfree : (s.arbiters.get l).lowestFree = some g) (hno : r.polled = none) : (grantTag l g c r s).Counted i := by
  refine h.of_eq rfl ?_ rfl
  rw [State.pollsOf_grantTag hfree, State.pollsFor, hno]
  rfl

theorem State.Counted.grant {l : Link} (hgrant : Grant l s t) (hfit : s.PollsFit) (h : s.Counted i) : t.Counted i := by
  cases hgrant with
  | none => exact h
  | write g r hfree => exact State.Counted.grantTag (s := sendWrite l r s) (h.of_eq rfl rfl rfl) hfree rfl
  | ident g n rest hfree =>
    refine State.Counted.grantTag (s := s.modArbiter l fun a => { a with idents := rest }) (h.of_eq rfl ?_ rfl)
      (by simpa [Arbiter.lowestFree, Arbiter.isFree] using hfree) rfl
    exact State.pollsOf_of_flights rfl (.modArbiter fun u => sameWork_refl _ u)
  | fetch g f rest hfree =>
    refine State.Counted.grantTag (s := s.modArbiter l fun a => { a with fetches := rest }) (h.of_eq rfl ?_ rfl)
      (by simpa [Arbiter.lowestFree, Arbiter.isFree] using hfree) rfl
    exact State.pollsOf_of_flights rfl (.modArbiter fun u => sameWork_refl _ u)
  | poll g item rest e hfree _ _ _ hpolls he =>
    exact h.grantPoll (hfit.fresh l item (hpolls ▸ List.mem_cons_self)) hfree hpolls he
  | dropped item rest hpolls he =>
    obtain ⟨e, hsome, -⟩ := hfit.entries.items l item (hpolls ▸ List.mem_cons_self)
    simp [he] at hsome

/-- R16: the poll of an entry IN_FLIGHT is never one that does not apply. -/
theorem State.Counted.withdraw {l : Link} {g : Tag} {r : Request} (h : s.Counted i) (hfit : s.PollsFit) (hr : s.request l g = some r)
    (hpoll : ∀ i x, r.polled = some (i, x) → pollApplies s i x r.node r.address r.length = false) : (withdraw l g s).Counted i := by
  have hleft := State.pollsOf_withdraw (i := i) hr
  by_cases hfor : s.pollsFor i r = true
  · rw [hfor] at hleft
    obtain ⟨hphase, -, hone⟩ := h.inFlight (by simp at hleft; omega)
    obtain ⟨e, he, hflight⟩ := Option.map_eq_some_iff.1 hphase
    obtain ⟨u, x, hx, hxfor, -⟩ := hfit.withdraw_hasPoll hr he hflight fun _ => hpoll i _ ((State.pollsFor_iff ..).1 hfor)
    have hzero : (Machine.withdraw l g s).pollsOf i = 0 := by simp at hleft; omega
    have hno := State.pollsOf_eq_zero.1 hzero (nodeLink e.node) u x hx
    rw [hxfor] at hno
    cases hno
  · rw [Bool.not_eq_true] at hfor
    rw [hfor] at hleft
    exact h.of_eq rfl hleft rfl

theorem State.Counted.pollEnded {l : Link} {g : Tag} {r : Request} {j : SlotIx} {e : Entry} {f : Entry → Entry} (h : s.Counted i)
    (hr : s.request l g = some r) (he : s.entry j = some e) (hpoll : r.polled = some (j, (s.slots.get j).generation))
    (hidle : (f e).phase = .idle) : ((Machine.withdraw l g s).modEntry j f).Counted i := by
  have hleft := State.pollsOf_withdraw (i := i) hr
  have hpolls : ((Machine.withdraw l g s).modEntry j f).pollsOf i = (Machine.withdraw l g s).pollsOf i :=
    State.pollsOf_of_arbiters (State.modEntry_generation ..) rfl
  by_cases hi : i = j
  · subst hi
    have hfor : s.pollsFor i r = true := (State.pollsFor_iff ..).2 hpoll
    rw [hfor] at hleft
    obtain ⟨-, hitems, hone⟩ := h.inFlight (by simp at hleft; omega)
    have hnow : ((Machine.withdraw l g s).modEntry i f).phaseAt i = some .idle := by
      rw [State.phaseAt_modEntry (s := Machine.withdraw l g s) he, hidle]
    refine .of_zero hitems ?_ (by simp [hnow]) (by simp [hnow])
    simp at hleft
    omega
  · have hfor : s.pollsFor i r = false := by
      rw [State.pollsFor, hpoll, decide_eq_false_iff_not]
      intro heq
      exact hi (congrArg Prod.fst (Option.some.inj heq)).symm
    rw [hfor] at hleft
    exact h.of_eq rfl (hpolls.trans hleft) (State.phaseAt_modEntry_of_ne hi)

theorem State.Counted.freeSlot {j : SlotIx} (h : s.Counted i) (hi : i ≠ j) : (freeSlot j s).Counted i := by
  rw [freeSlot_eq]
  cases s.entry j with
  | none =>
    exact h.of_eq rfl (State.pollsOf_of_arbiters (by simp [hi]) rfl) (by simp [State.phaseAt, State.entry, hi])
  | some e =>
    refine h.of_eq (Eq.trans (State.itemsOf_of_pollQueues rfl) (State.itemsOf_dropPoll_of_ne (l := nodeLink e.node) hi))
      (State.pollsOf_of_arbiters (by simp [hi, dropPoll]) rfl) (by simp [State.phaseAt, State.entry, hi, dropPoll])

/-- R4: a slot keeps its generation, or is freed. -/
theorem PollAct.generation (h : PollAct port s t) (i : SlotIx) : (t.slots.get i).generation = (s.slots.get i).generation
    ∨ (port.creates = false ∧ t.entry i = none ∧ (s.entry i).isSome = true
      ∧ (t.slots.get i).generation = (s.slots.get i).generation + 1) := by
  cases h with
  | same hslots => exact .inl (by rw [hslots])
  | kept => exact .inl (State.modEntry_generation ..)
  | queued j =>
    rcases queuePoll_cases j s with heq | ⟨e, -, -, -, heq⟩ <;> rw [heq]
    · exact .inl rfl
    · exact .inl (State.modEntry_generation ..)
  | created => exact .inl (State.putEntry_generation ..)
  | freed hnew j _ hused =>
    have hsame : ((s.entry j).elim s fun e => dropPoll j (nodeLink e.node) s).slots = s.slots := by cases s.entry j <;> rfl
    rw [freeSlot_eq]
    by_cases hi : i = j
    · subst hi
      exact .inr ⟨hnew, by simp [State.entry], hused, by simp [hsame]⟩
    · exact .inl (by simp [hi, hsame])
  | suspended j =>
    rcases suspendEntry_cases j s with heq | ⟨e, -, -, heq⟩ <;> rw [heq]
    · exact .inl rfl
    · exact .inl (State.modEntry_generation ..)
  | emptied _ l => exact .inl (emptyPollQueue_generation ..)
  | granted l hgrant =>
    cases hgrant with
    | poll => exact .inl (State.modEntry_generation ..)
    | _ => exact .inl rfl
  | discarded => exact .inl rfl
  | pollEnded => exact .inl (State.modEntry_generation ..)

/-- Where a slot keeps its generation, it stays counted. -/
theorem counted_pollAct (h : PollAct port s t) (hfit : s.PollsFit)
    (hgen : (t.slots.get i).generation = (s.slots.get i).generation) (hs : s.Counted i) : t.Counted i := by
  cases h with
  | same hslots hpolls hflights =>
    exact hs.of_eq (State.itemsOf_of_pollQueues hpolls) (State.pollsOf_of_flights hgen hflights) (by simp only [State.phaseAt, State.entry, hslots])
  | kept j f _ hf =>
    refine hs.of_eq rfl (State.pollsOf_of_arbiters hgen rfl) ?_
    by_cases hi : i = j
    · subst hi
      rw [State.phaseAt, State.phaseAt, State.modEntry_entry_self, Option.map_map]
      exact Option.map_congr fun e he => (hf e he).phase
    · exact State.phaseAt_modEntry_of_ne hi
  | queued j => exact hs.queuePoll j
  | created _ j e _ hnew =>
    have hpolls : (s.putEntry j e).pollsOf i = s.pollsOf i := State.pollsOf_of_arbiters hgen rfl
    by_cases hi : i = j
    · subst hi
      have hnone : s.phaseAt i = none := by rw [State.phaseAt, hnew.free]; rfl
      have hnow : (s.putEntry i e).phaseAt i = some .idle := by rw [State.phaseAt_of_some (State.putEntry_entry_self ..), hnew.idle]
      have hzero := hs.zero (by simp [hnone]) (by simp [hnone])
      exact .of_zero hzero.1 (hpolls.trans hzero.2) (by simp [hnow]) (by simp [hnow])
    · exact hs.of_eq rfl hpolls (by simp [State.phaseAt, State.entry, State.putEntry, hi])
  | freed _ j =>
    refine hs.freeSlot ?_
    rintro rfl
    have hsame : ((s.entry i).elim s fun e => dropPoll i (nodeLink e.node) s).slots = s.slots := by cases s.entry i <;> rfl
    rw [freeSlot_eq] at hgen
    simp [hsame] at hgen
  | suspended j => exact hs.suspendEntry hfit.entries j
  | emptied _ l => exact hs.emptyPollQueue l
  | granted l hgrant => exact hs.grant hgrant hfit
  | discarded l g r _ hr hpoll => exact hs.withdraw hfit hr hpoll
  | pollEnded l g r j e f _ hr he hpoll _ hidle => exact hs.pollEnded hr he hpoll hidle

end

end Sys2Proof.Machine

/-!
# The Mirror Table is kept (R2 to R11, R24, R35, R37)
-/

namespace Sys2Proof.Machine

set_option Elab.async false

section
variable {port : Scope} {s t u : State}

/-! ## A chain seen from its start -/

/-- A poll in flight carries the generation that its slot had at the start, or was in flight at the start. -/
def State.PollsSince (s t : State) : Prop :=
  ∀ l g, ∀ r ∈ t.request l g, ∀ i x, r.polled = some (i, x) →
    x = (s.slots.get i).generation ∨ ∃ r₀ ∈ s.request l g, r₀.kind = r.kind

/-- Since the start a slot has been counted true, or it has been freed. -/
inductive State.SlotSince (port : Scope) (s t : State) (i : SlotIx) : Prop
  | counted (hgen : (t.slots.get i).generation = (s.slots.get i).generation) (h : t.Counted i)
  | freed (hnew : port.creates = false) (hgen : (t.slots.get i).generation = (s.slots.get i).generation + 1) (hfree : t.entry i = none)

/-- All that is followed along a chain. -/
structure State.Since (port : Scope) (s t : State) : Prop where
  fit : t.PollsFit
  polls : s.PollsSince t
  slots : ∀ i, s.SlotSince port t i

theorem Request.polled_of_kind {r r' : Request} (h : r'.kind = r.kind) : r'.polled = r.polled := by simp only [Request.polled, h]

theorem State.PollsSince.of_flights (h : s.PollsSince t) (hflights : t.SameFlights u) : s.PollsSince u := by
  intro l g r' hr' i x hpolled
  have hrel := hflights l g
  rw [show u.request l g = some r' from hr'] at hrel
  generalize hx : t.request l g = o at hrel
  cases hrel with
  | some hsame =>
    have hwas := hsame.polled ▸ hpolled
    rw [hsame.kept (by simp [hwas])]
    exact h l g _ hx i x hwas

theorem State.PollsSince.of_subset (h : s.PollsSince t) (hrequests : ∀ l g, ∀ r ∈ u.request l g, r ∈ t.request l g) : s.PollsSince u :=
  fun l g r hr => h l g r (hrequests l g r hr)

theorem State.PollsSince.of_arbiters (h : s.PollsSince t) (harbiters : u.arbiters = t.arbiters) : s.PollsSince u :=
  h.of_flights (.of_arbiters harbiters)

theorem State.PollsSince.grantTag {l : Link} {g : Tag} {c : RequestClass} {r : Request} (h : s.PollsSince t)
    (hr : ∀ i x, r.polled = some (i, x) → x = (s.slots.get i).generation) : s.PollsSince (grantTag l g c r t) := by
  intro m v y hy i x hpolled
  rw [grantTag_request] at hy
  split at hy
  · obtain rfl : r = y := Option.some.inj hy
    exact .inl (hr i x hpolled)
  · exact h m v y hy i x hpolled

theorem State.PollsSince.grant {l : Link} (h : s.PollsSince t) (hfit : t.PollsFit) (hslots : ∀ i, s.SlotSince port t i)
    (hgrant : Grant l t u) : s.PollsSince u := by
  cases hgrant with
  | none => exact h
  | write g r => exact State.PollsSince.grantTag (t := sendWrite l r t) (h.of_arbiters rfl) (by simp [newRequest, Request.polled])
  | ident g n rest =>
    exact State.PollsSince.grantTag (t := t.modArbiter l fun a => { a with idents := rest }) (h.of_flights (.modArbiter fun v => sameWork_refl _ v))
      (by simp [newRequest, Request.polled])
  | fetch g f rest =>
    exact State.PollsSince.grantTag (t := t.modArbiter l fun a => { a with fetches := rest }) (h.of_flights (.modArbiter fun v => sameWork_refl _ v))
      (by simp [newRequest, Request.polled])
  | poll g item rest e _ _ _ _ hpolls he =>
    refine State.PollsSince.grantTag (t := (t.modPolls l fun _ => rest).modEntry item.slot fun e => { e with phase := .inFlight })
      (h.of_arbiters rfl) fun i x hpolled => ?_
    obtain ⟨rfl, rfl⟩ := Prod.mk.inj (Option.some.inj hpolled)
    rcases hslots item.slot with ⟨hgen, -⟩ | ⟨-, -, hfree⟩
    · exact (hfit.fresh l item (hpolls ▸ List.mem_cons_self)).trans hgen
    · simp [he] at hfree
  | dropped => exact h.of_arbiters rfl

theorem State.PollsSince.pollAct (h : s.PollsSince t) (hfit : t.PollsFit) (hslots : ∀ i, s.SlotSince port t i) (hact : PollAct port t u) :
    s.PollsSince u := by
  have hwithdrawn {l : Link} {g : Tag} {v : State} (hv : v.arbiters = (withdraw l g t).arbiters) : s.PollsSince v :=
    State.PollsSince.of_arbiters (t := withdraw l g t) (h.of_subset fun m x r hr => by
      rw [withdraw_request] at hr
      split at hr
      · cases hr
      · exact hr) hv
  cases hact with
  | same _ _ hflights => exact h.of_flights hflights
  | queued i => exact h.of_arbiters (Touch.arbiters (.queued i t))
  | freed _ i => exact h.of_arbiters (freeSlot_arbiters ..)
  | suspended i => exact h.of_arbiters (suspendEntry_arbiters ..)
  | emptied _ l => exact h.of_arbiters (emptyPollQueue_arbiters ..)
  | granted l hgrant => exact h.grant hfit hslots hgrant
  | discarded l g r => exact hwithdrawn rfl
  | pollEnded l g r i e f => exact hwithdrawn rfl
  | kept | created => exact h.of_arbiters rfl

/-- A freed slot stays free, and is freed once, in a chain that creates no entry. -/
theorem State.SlotSince.pollAct {i : SlotIx} (h : s.SlotSince port t i) (hfit : t.PollsFit) (hact : PollAct port t u) :
    s.SlotSince port u i := by
  rcases h with ⟨hgen, hcounted⟩ | ⟨hnew, hgen, hfree⟩
  · rcases hact.generation i with hsame | ⟨hnew, hnone, -, hnext⟩
    · exact .counted (hsame.trans hgen) (counted_pollAct hact hfit hsame hcounted)
    · exact .freed hnew (by rw [hnext, hgen]) hnone
  · refine .freed hnew ?_ ?_
    · rcases hact.generation i with hsame | ⟨-, -, hused, -⟩
      · exact hsame.trans hgen
      · simp [hfree] at hused
    · by_contra hsome
      obtain ⟨e, he⟩ := Option.ne_none_iff_exists'.1 hsome
      rcases hact.entry he with ⟨x, hx, -⟩ | ⟨hcreates, -⟩
      · simp [hfree] at hx
      · simp [hnew] at hcreates

theorem State.Since.of_counted (hfit : s.PollsFit) (hcounted : s.pollsCounted) : s.Since port s :=
  ⟨hfit, fun _ _ r hr _ _ _ => .inr ⟨r, hr, rfl⟩, fun i => .counted rfl (s.pollsCounted_iff.1 hcounted i)⟩

theorem State.Since.pollActs (h : s.Since port t) (hacts : PollActs port t u) : s.Since port u :=
  hacts.keeps (fun _ _ hact h => ⟨polls_pollAct hact h.fit, h.polls.pollAct h.fit h.slots hact, fun i => (h.slots i).pollAct h.fit hact⟩) h

theorem State.Since.of_moves (hfit : s.PollsFit) (hcounted : s.pollsCounted) (hmoves : Moves port s t) : s.Since port.departing t :=
  (State.Since.of_counted hfit hcounted).pollActs hmoves.toActs.pollActs

/-! ## What `noPollReached` makes of it -/

/-- Requests in flight stay in flight. -/
def State.KeepsRequests (s t : State) : Prop := ∀ l g, ∀ r ∈ s.request l g, ∃ r' ∈ t.request l g, r'.kind = r.kind

/-- A freed slot's next generation is that of no poll in flight, as long as the polls stay in flight. -/
theorem State.Since.counted (h : s.Since port t) (hgen : ∀ i, (u.slots.get i).generation = (t.slots.get i).generation)
    (hkept : t.KeepsRequests u) (hreach : s.noPollReached u) : t.pollsCounted := by
  refine t.pollsCounted_iff.2 fun i => ?_
  rcases h.slots i with ⟨-, hcounted⟩ | ⟨-, hnext, hfree⟩
  · exact hcounted
  · have hphase : t.phaseAt i = none := by rw [State.phaseAt, hfree]; rfl
    have hnone : ∀ l g, ∀ r ∈ t.request l g, t.pollsFor i r = false := by
      intro l g r hr
      by_contra hfor
      rw [Bool.not_eq_false, State.pollsFor_iff] at hfor
      have hnew : (s.slots.get i).generation ≠ (s.slots.get i).generation + 1 := by simp
      rcases h.polls l g r hr i _ hfor with hold | ⟨r₀, hr₀, hkind⟩
      · exact hnew (hold.symm.trans hnext)
      · obtain ⟨r', hr', hkind'⟩ := hkept l g r hr
        have hreached := hreach l g r₀ hr₀ (by rw [show u.request l g = some r' from hr']; exact congrArg some (hkind'.trans hkind.symm)) i
          ((State.pollsFor_iff ..).2 (by rw [Request.polled_of_kind hkind, hfor, hgen]))
        rw [State.pollsFor_iff, Request.polled_of_kind hkind, hfor] at hreached
        exact hnew (hnext ▸ congrArg Prod.snd (Option.some.inj hreached)).symm
    refine .of_zero (State.itemsOf_eq_zero.2 fun l item hitem hslot => ?_) (State.pollsOf_eq_zero.2 hnone) (by simp [hphase]) (by simp [hphase])
    obtain ⟨e, he, -⟩ := h.fit.entries.items l item hitem
    rw [hslot, hfree] at he
    cases he

theorem State.KeepsRequests.refl (s : State) : s.KeepsRequests s := fun _ _ r hr => ⟨r, hr, rfl⟩

theorem State.KeepsRequests.trans (h : s.KeepsRequests t) (h' : t.KeepsRequests u) : s.KeepsRequests u := by
  intro l g r hr
  obtain ⟨r', hr', hkind⟩ := h l g r hr
  obtain ⟨r'', hr'', hkind'⟩ := h' l g r' hr'
  exact ⟨r'', hr'', hkind'.trans hkind⟩

theorem State.KeepsRequests.of_arbiters (h : t.arbiters = s.arbiters) : s.KeepsRequests t := fun l g r hr =>
  ⟨r, by simpa only [State.request, h] using hr, rfl⟩

theorem State.KeepsRequests.grantTag {l : Link} {g : Tag} {c : RequestClass} {r : Request} (h : s.KeepsRequests t)
    (hfree : (t.arbiters.get l).lowestFree = some g) : s.KeepsRequests (grantTag l g c r t) := by
  intro m v x hx
  obtain ⟨x', hx', hkind⟩ := h m v x hx
  exact ⟨x', State.mem_grantTag hfree hx', hkind⟩

theorem State.KeepsRequests.of_grant {l : Link} (h : Grant l s t) : s.KeepsRequests t := by
  have htags {f : Arbiter → Arbiter} (hf : ∀ a, (f a).tags = a.tags) : s.KeepsRequests (s.modArbiter l f) := fun m v x hx =>
    ⟨x, by rwa [modArbiter_request_of_tags hf], rfl⟩
  cases h with
  | none => exact .refl s
  | write g r hfree => exact State.KeepsRequests.grantTag (t := sendWrite l r s) (.of_arbiters rfl) hfree
  | ident g n rest hfree =>
    exact State.KeepsRequests.grantTag (t := s.modArbiter l fun a => { a with idents := rest }) (htags fun _ => rfl)
      (by simpa [Arbiter.lowestFree, Arbiter.isFree] using hfree)
  | fetch g f rest hfree =>
    exact State.KeepsRequests.grantTag (t := s.modArbiter l fun a => { a with fetches := rest }) (htags fun _ => rfl)
      (by simpa [Arbiter.lowestFree, Arbiter.isFree] using hfree)
  | poll g item rest e hfree =>
    exact State.KeepsRequests.grantTag (t := (s.modPolls l fun _ => rest).modEntry item.slot fun e => { e with phase := .inFlight })
      (.of_arbiters rfl) hfree
  | dropped => exact .of_arbiters rfl

theorem grants_keepsRequests (s : State) : s.KeepsRequests (grants s) := by
  have hone (l : Link) (u : State) : u.KeepsRequests (grantOne l u) := .of_grant (grantOne_grant l u)
  have hlink (l : Link) (u : State) : u.KeepsRequests (grantLink l u) :=
    .trans (hone l _) (.trans (hone l _) (.trans (hone l _) (.trans (hone l _) (.trans (hone l _) (.trans (hone l _) (.trans (hone l _) (hone l _)))))))
  exact .trans (hlink 0 s) (hlink 1 _)

theorem createEntry_arbiters (i : SlotIx) (n : Node) (first : Word16) (len : Nat) (h : Host) (c : RateClass) (s : State) :
    (createEntry i n first len h c s).arbiters = s.arbiters := by
  unfold createEntry
  dsimp only
  split
  · exact queuePoll_read (g := State.arbiters) (fun _ _ _ => rfl) (fun _ _ _ => rfl) ..
  all_goals rfl

theorem cmdDefineEntry_keepsRequests (h : Host) (ps : List Byte) (s : State) : s.KeepsRequests (cmdDefineEntry h ps s).state := by
  have hmet (i : SlotIx) (u : State) : (meetLimit i u).arbiters = u.arbiters :=
    meetLimit_read (g := State.arbiters) (fun _ _ _ => rfl) (fun _ _ _ => rfl) i u
  have hgranted (u : State) (hu : u.arbiters = s.arbiters) : s.KeepsRequests (grants u) :=
    State.KeepsRequests.trans (.of_arbiters hu) (grants_keepsRequests u)
  unfold cmdDefineEntry
  split
  · split
    · dsimp only
      split
      · exact .refl s
      · split
        · split
          · exact .of_arbiters (Eq.trans (hmet ..) rfl)
          · exact .of_arbiters (Eq.trans (hmet ..) rfl)
        · split
          · exact .refl s
          · split
            · exact .refl s
            · dsimp only
              exact hgranted _ (createEntry_arbiters ..)
    · exact .refl s
  · exact .refl s

/-- DEFINE_ENTRY ends no request. -/
theorem defineEntry_keepsRequests (h : Host) (ps : List Byte) (s : State) :
    s.KeepsRequests (placeResult h .defineEntry (Command.answer .defineEntry h ps s)) := by
  have hanswered : s.KeepsRequests (Command.answer .defineEntry h ps s).state := by
    rcases answer_cases .defineEntry h ps s with ⟨-, hr⟩ | ⟨-, -, -, hr⟩ | ⟨-, -, hr⟩ <;> rw [hr]
    · exact .refl s
    · exact .refl s
    · exact cmdDefineEntry_keepsRequests h ps s
  have hplaced (r : Reply) : (placeResult h .defineEntry r).arbiters = r.state.arbiters := State.withResult_arbiters ..
  exact hanswered.trans (.of_arbiters (hplaced _))

/-- A chain that frees no slot keeps every generation. -/
theorem PollActs.generation (h : PollActs port s t) (hnew : port.creates = true) (i : SlotIx) :
    (t.slots.get i).generation = (s.slots.get i).generation := by
  induction h with
  | refl => rfl
  | tail _ hlast ih =>
    rcases hlast.generation i with hsame | ⟨hfrees, -⟩
    · exact hsame.trans ih
    · simp [hnew] at hfrees

/-- A later start. -/
theorem State.noPollReached.later (h : s.noPollReached u) (hsince : s.PollsSince t)
    (hgen : ∀ i, (t.slots.get i).generation = (s.slots.get i).generation) : t.noPollReached u := by
  intro l g r hr hkind i hfor
  rw [State.pollsFor_iff] at hfor ⊢
  rcases hsince l g r hr i _ hfor with hold | ⟨r₀, hr₀, hsame⟩
  · rw [hfor, hold, hgen]
  · have hreached := h l g r₀ hr₀ (by rw [hkind, hsame]) i ((State.pollsFor_iff ..).2 (by rw [Request.polled_of_kind hsame, hfor]))
    rw [State.pollsFor_iff, Request.polled_of_kind hsame] at hreached
    rw [hreached, hgen]

theorem counted_phases (h : Phases s t) (htraffic : s.trafficOk) (hpolls : s.pollsOk) (hcounted : s.pollsCounted)
    (hreach : s.noPollReached t) : t.pollsCounted := by
  obtain ⟨u, new, new', hfirst, hsecond, hdefine⟩ := h
  have hfit := ((State.pollsOk_iff htraffic).1 hpolls).1
  have hlast {port : Scope} {v : State} (hsince : v.Since port t) (hreach : v.noPollReached t) : t.pollsCounted :=
    hsince.counted (fun _ => rfl) (.refl t) hreach
  have hsince := State.Since.of_moves hfit hcounted hfirst
  have hrest (hu : u.pollsCounted) (hreach : u.noPollReached t) : t.pollsCounted :=
    hlast (State.Since.of_moves hsince.fit hu hsecond) hreach
  have hgen {new : Bool} {v w : State} (hmoves : Moves ⟨true, new, false⟩ v w) (hnew : new = true) (i : SlotIx) :
      (w.slots.get i).generation = (v.slots.get i).generation := hmoves.toActs.pollActs.generation hnew i
  cases hnew : new with
  | true =>
    have hstart := hreach.later hsince.polls (hgen hfirst hnew)
    refine hrest (u.pollsCounted_iff.2 fun i => ?_) hstart
    rcases hsince.slots i with ⟨-, h⟩ | ⟨hfrees, -⟩
    · exact h
    · simp [hnew] at hfrees
  | false =>
    cases hnew' : new' with
    | false =>
      subst hnew hnew'
      exact hlast (hsince.pollActs hsecond.toActs.pollActs) hreach
    | true =>
      obtain ⟨h, ps, rfl⟩ := hdefine hnew hnew'
      have hu := hsince.counted (hgen hsecond hnew') (defineEntry_keepsRequests h ps u) hreach
      refine hrest hu fun l g r hr hkind i hfor => ?_
      rwa [← State.pollsFor_congr (hgen hsecond hnew' i)]

/-! ## After a reset -/

theorem pollsOk_steps (s t : State) (htraffic : s.trafficOk) (hs : s.pollsOk) (h : step s = .next t) : t.pollsOk := by
  rcases step_phases h with ⟨a, b, n, p, rfl⟩ | ⟨u, new, new', hfirst, hsecond, -⟩
  · exact resetWith_pollsOk a b n p
  · exact (hsecond.keeps (P := fun u => u.trafficOk ∧ u.pollsOk) (fun _ _ hmove => polls_traffic_move hmove rfl)
      (hfirst.keeps (P := fun u => u.trafficOk ∧ u.pollsOk) (fun _ _ hmove => polls_traffic_move hmove rfl) ⟨htraffic, hs⟩)).2

/-- Settles O9: entries are followed change by change; queue and tags are counted change by change, and where a slot is freed its next
generation is that of no poll in flight. -/
theorem mirrorTableKept : Obligations.MirrorTableKept := by
  refine ⟨fun s t => step_keeps (fun a b n p => resetWith_mirrorOk a b n p)
    (fun _ _ hact hs => hact.pollActs.keeps (fun _ _ => mirrorOk_pollAct) hs) s t, pollsOk_steps, fun s t htraffic hpolls hcounted h hreach => ?_⟩
  rcases step_phases h with ⟨a, b, n, p, rfl⟩ | hphases
  · exact resetWith_pollsCounted a b n p
  · exact counted_phases hphases htraffic hpolls hcounted hreach

end

end Sys2Proof.Machine

/-!
# What hosts are handed while writes and fetches end (R62, R123, R129, R160)
-/

namespace Sys2Proof.Machine

set_option Elab.async false

/-! ## A host's record -/

/-- R62: a covered record of the host has failed, and `left` covered ones were left. -/
def HostState.countFailure (now : Word16) (left : Nat) (hs : HostState) : HostState :=
  match hs.drain with
  | none => hs
  | some d =>
    if left = 1 then
      { HostState.receive now (eventOf .drainDone 0 Reason.ok.code (word16 (byteOf d.covered) (byteOf (d.failed + 1))))
          { hs with drain := some { d with failed := d.failed + 1 } } with drain := none }
    else { hs with drain := some { d with failed := d.failed + 1 } }

/-- An event, where there is one. -/
def HostState.told (now : Word16) (x : Option EventBody) (hs : HostState) : HostState := x.elim hs fun b => hs.receive now b

theorem HostState.handedOne_eq (now : Word16) (left : Nat) (hs : HostState) (x : Option EventBody × Bool) :
    hs.handedOne now left x = if x.2 then (hs.told now x.1).countFailure now left else hs.told now x.1 := by
  have hfailure (hs : HostState) : HostState.handed now left hs [(none, true)] = hs.countFailure now left := by
    simp only [HostState.handed, if_true, HostState.countFailure]
    cases hd : hs.drain with
    | none =>
      have hsame : { hs with drain := none } = hs := by rw [← hd]
      simp only [Option.map_none, hsame]
    | some d => rfl
  obtain ⟨told, drains⟩ := x
  cases drains with
  | false => cases told <;> rfl
  | true =>
    cases told with
    | none => exact hfailure hs
    | some b => exact hfailure (hs.receive now b)

theorem HostState.receive_fetchBuffer (now : Word16) (x : EventBody) (hs : HostState) (b : Option FetchResult) :
    HostState.receive now x { hs with fetchBuffer := b } = { hs.receive now x with fetchBuffer := b } := by
  unfold HostState.receive
  split
  · rfl
  · split
    · rfl
    · split <;> rfl

theorem HostState.handedOne_fetchBuffer (now : Word16) (left : Nat) (hs : HostState) (b : Option FetchResult)
    (x : Option EventBody × Bool) :
    HostState.handedOne now left { hs with fetchBuffer := b } x = { hs.handedOne now left x with fetchBuffer := b } := by
  have htold : HostState.told now x.1 { hs with fetchBuffer := b } = { hs.told now x.1 with fetchBuffer := b } := by
    unfold HostState.told
    cases x.1 with
    | none => rfl
    | some e => exact HostState.receive_fetchBuffer ..
  have hcount (hs : HostState) : HostState.countFailure now left { hs with fetchBuffer := b }
      = { hs.countFailure now left with fetchBuffer := b } := by
    simp only [HostState.countFailure]
    split
    · rfl
    · split
      · next d _ _ =>
        exact congrArg (fun hs : HostState => { hs with drain := none })
          (HostState.receive_fetchBuffer now _ { hs with drain := some { d with failed := d.failed + 1 } } b)
      · rfl
  rw [HostState.handedOne_eq, HostState.handedOne_eq, htold, hcount]
  split <;> rfl

/-- The fetch buffer neither matters to what a host is handed nor changes by it. -/
theorem HostState.handed_fetchBuffer (now : Word16) (left : Nat) (hs : HostState) (b : Option FetchResult)
    (xs : List (Option EventBody × Bool)) :
    HostState.handed now left { hs with fetchBuffer := b } xs = { hs.handed now left xs with fetchBuffer := b } := by
  induction xs generalizing left hs with
  | nil => rfl
  | cons x xs ih => rw [HostState.handed_cons, HostState.handed_cons, HostState.handedOne_fetchBuffer, ih]

theorem HostState.handed_same_fetchBuffer (now : Word16) (left : Nat) (hs : HostState) (xs : List (Option EventBody × Bool)) :
    { hs.handed now left xs with fetchBuffer := hs.fetchBuffer } = hs.handed now left xs :=
  (HostState.handed_fetchBuffer now left hs hs.fetchBuffer xs).symm

/-! ## What a rule hands to every host -/

theorem State.handed_eq (s : State) (h : Host) (xs : List (Option EventBody × Bool)) :
    s.handed h xs = (s.hosts.get h).handed (low16 s.timeBase) (s.coveredCount h) xs := by
  have hcount : ((s.writeQueues.get 0).order ++ (s.writeQueues.get 1).order).countP (fun r => decide (r.origin = h ∧ r.covered = true))
      = s.coveredCount h := by
    rw [List.countP_append, State.coveredCount]
    have hsame : (fun r : WriteRecord => decide (r.origin = h ∧ r.covered = true)) = WriteRecord.coversFor h :=
      funext fun r => by simp [WriteRecord.coversFor]
    rw [hsame]
  exact congrArg (fun k => (s.hosts.get h).handed (low16 s.timeBase) k xs) hcount

/-- From `s` to `t` the records `ws` leave the write queues, every host is handed `xs`, its fetch buffer takes the results `fs` in turn,
and its record changes in nothing else. -/
structure State.Tells (ws : List WriteRecord) (xs : Host → List (Option EventBody × Bool)) (fs : Host → List FetchResult)
    (s t : State) : Prop where
  hosts : ∀ h, t.hosts.get h = { s.handed h (xs h) with fetchBuffer := (fs h).getLast?.or (s.hosts.get h).fetchBuffer }
  drains : ∀ h, ((xs h).countP fun x => x.2) = ws.countP (WriteRecord.coversFor h)
  covered : ∀ h, t.coveredCount h + ws.countP (WriteRecord.coversFor h) = s.coveredCount h
  timeBase : t.timeBase = s.timeBase

section
variable {ws ws' : List WriteRecord} {xs xs' : Host → List (Option EventBody × Bool)} {fs fs' : Host → List FetchResult}
variable {s t u : State}

/-- Nothing is told. -/
theorem State.Tells.of_covered (hhosts : t.hosts = s.hosts) (hcovered : ∀ h, t.coveredCount h = s.coveredCount h)
    (htime : t.timeBase = s.timeBase) : State.Tells [] (fun _ => []) (fun _ => []) s t where
  hosts h := by rw [hhosts]; rfl
  drains _ := rfl
  covered := hcovered
  timeBase := htime

theorem State.Tells.of_same (hhosts : t.hosts = s.hosts) (hwrites : t.writeQueues = s.writeQueues) (htime : t.timeBase = s.timeBase) :
    State.Tells [] (fun _ => []) (fun _ => []) s t :=
  .of_covered hhosts (fun h => by simp only [State.coveredCount, hwrites]) htime

/-- One rule after another. -/
theorem State.Tells.trans (h : State.Tells ws xs fs s t) (h' : State.Tells ws' xs' fs' t u) :
    State.Tells (ws ++ ws') (fun g => xs g ++ xs' g) (fun g => fs g ++ fs' g) s u where
  hosts g := by
    have hleft : s.coveredCount g - ((xs g).countP fun x => x.2) = t.coveredCount g := by
      rw [h.drains, ← h.covered]
      omega
    rw [h'.hosts, State.handed_eq, State.handed_eq, HostState.handed_append, hleft, h.hosts, h.timeBase, HostState.handed_fetchBuffer,
      State.handed_eq, List.getLast?_append, Option.or_assoc]
  drains g := by rw [List.countP_append, List.countP_append, h.drains, h'.drains]
  covered g := by
    rw [List.countP_append, ← h.covered, ← h'.covered]
    omega
  timeBase := h'.timeBase.trans h.timeBase

theorem State.Tells.congr (h : State.Tells ws xs fs s t) (hxs : ∀ g, xs' g = xs g) (hfs : ∀ g, fs' g = fs g) :
    State.Tells ws xs' fs' s t := by
  obtain rfl : xs' = xs := funext hxs
  obtain rfl : fs' = fs := funext hfs
  exact h

/-- One host is told, and no write ends. -/
theorem State.Tells.plain {f : Host → HostState → HostState} (hhosts : ∀ h, t.hosts.get h = f h (s.hosts.get h))
    (hwrites : t.writeQueues = s.writeQueues) (htime : t.timeBase = s.timeBase) (hplain : ∀ h, Plain (xs h))
    (hf : ∀ h hs, f h hs = { HostState.handed (low16 s.timeBase) (s.coveredCount h) hs (xs h) with
      fetchBuffer := (fs h).getLast?.or hs.fetchBuffer }) : State.Tells [] xs fs s t where
  hosts h := by rw [hhosts, hf, State.handed_eq]
  drains h := by rw [(hplain h).countP]; rfl
  covered h := by simp only [State.coveredCount, hwrites]; rfl
  timeBase := htime

/-! ## Writes that fail -/

theorem mirrorEnding_hosts (r : WriteRecord) {why : Reason} (hwhy : why ≠ .ok) (s : State) : (mirrorEnding r why s).hosts = s.hosts := by
  rw [mirrorEnding, if_neg hwhy]
  exact mirrorWriteFailed_read (g := State.hosts) (fun _ _ _ => rfl) (fun _ _ _ => rfl) ..

theorem mirrorEnding_timeBase (r : WriteRecord) {why : Reason} (hwhy : why ≠ .ok) (s : State) :
    (mirrorEnding r why s).timeBase = s.timeBase := by
  rw [mirrorEnding, if_neg hwhy]
  exact mirrorWriteFailed_read (g := State.timeBase) (fun _ _ _ => rfl) (fun _ _ _ => rfl) ..

/-- What its origin host is told of a failed write. -/
def WriteRecord.told (why : Reason) (r : WriteRecord) : Option EventBody := if r.reported then some (writeFailedEvent r why) else none

theorem WriteRecord.failing_eq (h : Host) (why : Reason) (r : WriteRecord) :
    r.failing h why = if r.origin = h then some (r.told why, r.covered) else none := rfl

theorem tellEnding_hosts (r : WriteRecord) {why : Reason} (hwhy : why ≠ .ok) (s : State) (g : Host) :
    (tellEnding r why s).hosts.get g
      = if r.origin = g then (s.hosts.get g).told (low16 s.timeBase) (r.told why) else s.hosts.get g := by
  unfold tellEnding WriteRecord.told
  by_cases hreported : r.reported = true
  · rw [if_pos ⟨hwhy, hreported⟩, if_pos hreported, notify_hosts, mirrorEnding_timeBase r hwhy, mirrorEnding_hosts r hwhy]
    by_cases hg : r.origin = g
    · subst hg; simp [HostState.told]
    · simp [hg, Ne.symm hg]
  · rw [if_neg fun h => hreported h.2, if_neg hreported, mirrorEnding_hosts r hwhy]
    simp [HostState.told]

/-- R62: the DRAIN of a host after one of its covered records has failed and left the queues. -/
theorem drained_hosts (l : Link) (r : WriteRecord) (s : State) (g : Host) :
    (completeDrain r.origin ((countDrainFailure r.origin s).modWrites l (freeRecord r))).hosts.get g
      = if r.origin = g then (s.hosts.get g).countFailure (low16 s.timeBase) ((s.modWrites l (freeRecord r)).coveredCount g + 1)
        else s.hosts.get g := by
  have hcounted (h : Host) : ((countDrainFailure r.origin s).hosts.get h)
      = if r.origin = h then { s.hosts.get h with drain := (s.hosts.get h).drain.map fun d => { d with failed := d.failed + 1 } }
        else s.hosts.get h := by
    rw [countDrainFailure, State.modHost_hosts, get_upd]
    by_cases hh : h = r.origin
    · simp [hh]
    · simp [hh, Ne.symm hh]
  have hcount : ((countDrainFailure r.origin s).modWrites l (freeRecord r)).coveredCount r.origin
      = (s.modWrites l (freeRecord r)).coveredCount r.origin := rfl
  generalize hu : (countDrainFailure r.origin s).modWrites l (freeRecord r) = u at hcount
  have hhosts (h : Host) : u.hosts.get h = (countDrainFailure r.origin s).hosts.get h := by rw [← hu]; rfl
  have htime : u.timeBase = s.timeBase := by rw [← hu]; rfl
  cases hd : (s.hosts.get r.origin).drain with
  | none =>
    have hnone : (u.hosts.get r.origin).drain = none := by rw [hhosts, hcounted, if_pos rfl, hd]; rfl
    rw [completeDrain, hnone, hhosts, hcounted]
    split
    · next hg =>
      have hg : (s.hosts.get g).drain = none := hg ▸ hd
      simp only [HostState.countFailure, hg, Option.map_none]
      rw [← hg]
    · rfl
  | some d =>
    have hsome : (u.hosts.get r.origin).drain = some { d with failed := d.failed + 1 } := by rw [hhosts, hcounted, if_pos rfl, hd]; rfl
    have hleft := u.coveredLeft_eq_true_iff_count r.origin
    rw [hcount] at hleft
    cases hl : u.coveredLeft r.origin with
    | true =>
      rw [completeDrain_waits hsome hl, hhosts, hcounted]
      split
      · next hg =>
        subst hg
        have hne : ¬ (s.modWrites l (freeRecord r)).coveredCount r.origin + 1 = 1 := by
          have := hleft.1 hl
          omega
        simp only [HostState.countFailure, hd, if_neg hne, Option.map_some]
      · rfl
    | false =>
      have hzero : (s.modWrites l (freeRecord r)).coveredCount r.origin + 1 = 1 := by
        by_contra hne
        have := hleft.2 (by omega)
        simp [hl] at this
      rw [completeDrain_done hsome hl, State.modHost_hosts, get_upd]
      by_cases hg : r.origin = g
      · subst hg
        simp only [if_true, HostState.countFailure, hd, if_pos hzero, notify_hosts, hhosts, hcounted, Option.map_some, htime]
      · rw [if_neg (Ne.symm hg), notify_hosts, if_neg (Ne.symm hg), if_neg hg, hhosts, hcounted, if_neg hg]

/-- R56, R62: what a write that fails hands to the hosts. -/
theorem finishWrite_tells {l : Link} {r : WriteRecord} {why : Reason} (hwhy : why ≠ .ok) {s : State} (hr : r ∈ (s.writeQueues.get l).order) :
    State.Tells [r] (fun h => (r.failing h why).toList) (fun _ => []) s (finishWrite l r why s) := by
  have htime : (tellEnding r why s).timeBase = s.timeBase := by
    unfold tellEnding
    split <;> exact mirrorEnding_timeBase r hwhy s
  have hqueues := finishWrite_writeQueues l r why s
  refine ⟨fun g => ?_, fun g => ?_, fun g => ?_, ?_⟩
  · have hhosts : (finishWrite l r why s).hosts.get g = if r.origin = g then (s.hosts.get g).handedOne (low16 s.timeBase) (s.coveredCount g)
        (r.told why, r.covered) else s.hosts.get g := by
      have htold := tellEnding_hosts r hwhy s g
      rw [finishWrite_eq]
      dsimp only
      cases hc : r.covered with
      | false =>
        simp only [Bool.false_eq_true, false_and, if_false, HostState.handedOne_eq]
        exact htold
      | true =>
        simp only [if_true, true_and, hwhy, ne_eq, not_false_eq_true, drained_hosts, htime, htold, HostState.handedOne_eq]
        split
        · next hg =>
          have hcount := coveredCount_freeRecord hr g
          have hsame : ((tellEnding r why s).modWrites l (freeRecord r)).coveredCount g = (s.modWrites l (freeRecord r)).coveredCount g :=
            State.coveredCount_of_eq g fun m => by rw [State.modWrites_writeQueues, State.modWrites_writeQueues, tellEnding_writeQueues]
          rw [hsame, ← hcount, show r.coversFor g = true by simp [WriteRecord.coversFor, hg, hc]]
          rfl
        · rfl
    rw [hhosts, State.handed_eq, WriteRecord.failing_eq]
    split
    · exact (HostState.handed_same_fetchBuffer ..).symm
    · rfl
  · rw [WriteRecord.failing_eq, List.countP_singleton]
    by_cases hg : r.origin = g
    · simp [hg, WriteRecord.coversFor]
    · simp [hg, WriteRecord.coversFor]
  · rw [List.countP_singleton, ← coveredCount_freeRecord hr g]
    have hsame : (finishWrite l r why s).coveredCount g = (s.modWrites l (freeRecord r)).coveredCount g :=
      State.coveredCount_of_eq g fun m => by rw [hqueues]
    rw [hsame]
    cases r.coversFor g <;> rfl
  · exact finishWrite_read (g := State.timeBase) (fun _ _ _ => rfl) (fun _ _ _ => rfl) (fun _ _ _ => rfl) (fun _ _ _ => rfl) ..

/-! ## Fetches that end -/

/-- The result of a fetch that ends with no data. -/
abbrev emptyResult (ticket : Byte) (n : Node) (address : Word16) (length : Nat) (why : Reason) : FetchResult :=
  { ticket := ticket, status := why, node := n, address := address, length := length, data := [] }

/-- What host `h` is told of a fetch that ends with no data. -/
def fetchTold (g : Host) (ticket : Byte) (reported : Bool) (n : Node) (why : Reason) (h : Host) : List (Option EventBody × Bool) :=
  if g = h ∧ reported = true then [plainly .fetchDone (nodeRef n) why.code (ticket.setWidth 16)] else []

/-- And what its fetch buffer takes. -/
def fetchResult (g : Host) (ticket : Byte) (reported : Bool) (n : Node) (address : Word16) (length : Nat) (why : Reason) (h : Host) :
    List FetchResult :=
  if g = h ∧ reported = true then [emptyResult ticket n address length why] else []

theorem finishFetch_tells (g : Host) (ticket : Byte) (reported : Bool) (n : Node) (address : Word16) (length : Nat) (why : Reason)
    (s : State) : State.Tells [] (fetchTold g ticket reported n why) (fetchResult g ticket reported n address length why) s
      (finishFetch g ticket reported n address length why [] s) := by
  cases reported with
  | false =>
    refine State.Tells.congr (.of_same rfl rfl rfl) (fun h => ?_) fun h => ?_
    · simp [fetchTold]
    · simp [fetchResult]
  | true =>
    refine State.Tells.plain (f := fun h hs => if g = h then HostState.receive (low16 s.timeBase)
      (eventOf .fetchDone (nodeRef n) why.code (ticket.setWidth 16)) { hs with fetchBuffer := some (emptyResult ticket n address length why) } else hs)
      (fun h => ?_) rfl rfl (fun h => ?_) fun h hs => ?_
    · simp only [finishFetch, if_true, notify_hosts, State.modHost_hosts, get_upd, ite_self]
      by_cases hh : h = g
      · subst hh; simp
      · simp [hh, Ne.symm hh]
    · unfold fetchTold
      split
      · exact plain_plainly _ _ _ _
      · exact plain_nil
    · unfold fetchTold fetchResult
      by_cases hh : g = h
      · simp only [hh, and_self, if_true, HostState.handed_plainly, HostState.receive_fetchBuffer]
        rfl
      · simp [hh, HostState.handed]

end

end Sys2Proof.Machine

/-!
# What endings leave of the entries of departing nodes (R21, R23, R25)
-/

namespace Sys2Proof.Machine

set_option Elab.async false

/-- An entry that has lost polls and seen `k` failed writes: state, phase and repoll mark may be others, the epoch is raised. -/
def Entry.Worn (k : Nat) (e e' : Entry) : Prop :=
  e' = { e with state := e'.state, phase := e'.phase, repoll := e'.repoll, epoch := e.epoch + BitVec.ofNat 16 k }

theorem Entry.Worn.node {k : Nat} {e e' : Entry} (h : e.Worn k e') : e'.node = e.node := by rw [h]

theorem Entry.Worn.reaches {k : Nat} {e e' : Entry} (h : e.Worn k e') (r : WriteRecord) : r.reaches e' = r.reaches e := by rw [h]; rfl

theorem Entry.Worn.of_same (e e' : Entry) (h : e' = { e with state := e'.state, phase := e'.phase, repoll := e'.repoll }) : e.Worn 0 e' := by
  rw [Entry.Worn]
  exact h.trans (by simp)

theorem Entry.Worn.trans {k k' : Nat} {e e' e'' : Entry} (h : e.Worn k e') (h' : e'.Worn k' e'') : e.Worn (k + k') e'' := by
  rw [Entry.Worn] at h' ⊢
  rw [h'] 
  rw [h, BitVec.ofNat_add, ← BitVec.add_assoc]

/-- The item is of no entry of the nodes `p`. -/
def State.outside (p : Node → Bool) (s : State) (item : PollItem) : Bool := !(s.entry item.slot).any fun e => p e.node

/-- An entry of another node is as before. -/
def Entry.WornIf (p : Node → Bool) (ws : List WriteRecord) (e e' : Entry) : Prop :=
  if p e.node then e.Worn (ws.countP fun r => r.reaches e) e' else e' = e

/-- From `s` to `t` the entries of the nodes `p` have lost polls and seen the failed writes `ws`; the other entries and their queued
polls are as before. -/
structure State.Worn (p : Node → Bool) (ws : List WriteRecord) (s t : State) : Prop where
  entries : ∀ i, Option.Rel (Entry.WornIf p ws) (s.entry i) (t.entry i)
  generation : ∀ i, (t.slots.get i).generation = (s.slots.get i).generation
  polls : ∀ l, (t.pollQueues.get l).filter (s.outside p) = (s.pollQueues.get l).filter (s.outside p)

section
variable {p : Node → Bool} {ws ws' : List WriteRecord} {s t u : State}

theorem Entry.WornIf.node {e e' : Entry} (h : e.WornIf p ws e') : e'.node = e.node := by
  unfold Entry.WornIf at h
  split at h
  · exact h.node
  · rw [h]

theorem Entry.WornIf.trans {e e' e'' : Entry} (h : e.WornIf p ws e') (h' : e'.WornIf p ws' e'') : e.WornIf p (ws ++ ws') e'' := by
  have hnode := h.node
  unfold Entry.WornIf at h h' ⊢
  rw [hnode] at h'
  by_cases hp : p e.node = true
  · rw [if_pos hp] at h h' ⊢
    rw [List.countP_append]
    refine h.trans ?_
    rwa [show (fun r : WriteRecord => r.reaches e') = fun r => r.reaches e from funext h.reaches] at h'
  · rw [if_neg hp] at h h' ⊢
    rw [h', h]

theorem Entry.WornIf.refl (e : Entry) : e.WornIf p [] e := by
  unfold Entry.WornIf
  split
  · exact .of_same e e rfl
  · rfl

theorem rel_refl {α : Type} {R : α → α → Prop} (hR : ∀ a, R a a) (o : Option α) : Option.Rel R o o := by
  cases o with
  | none => exact .none
  | some a => exact .some (hR a)

theorem State.Worn.outside (h : s.Worn p ws t) : t.outside p = s.outside p := by
  funext item
  have hrel := h.entries item.slot
  unfold State.outside
  generalize s.entry item.slot = x, t.entry item.slot = y at hrel
  cases hrel with
  | none => rfl
  | some hworn => simp [hworn.node]

theorem State.Worn.of_same (hslots : t.slots = s.slots) (hpolls : t.pollQueues = s.pollQueues) : State.Worn p [] s t where
  entries i := by
    rw [show t.entry i = s.entry i by rw [State.entry, hslots, State.entry]]
    exact rel_refl .refl _
  generation i := by rw [hslots]
  polls l := by rw [hpolls]

theorem State.Worn.trans (h : s.Worn p ws t) (h' : t.Worn p ws' u) : s.Worn p (ws ++ ws') u where
  entries i := by
    have hrel := h.entries i
    have hrel' := h'.entries i
    generalize s.entry i = x, t.entry i = y, u.entry i = z at hrel hrel'
    cases hrel with
    | none => cases hrel'; exact .none
    | some hworn =>
      cases hrel' with
      | some hworn' => exact .some (hworn.trans hworn')
  generation i := (h'.generation i).trans (h.generation i)
  polls l := by
    have hrest := h'.polls l
    rw [h.outside] at hrest
    exact hrest.trans (h.polls l)

/-- A rule acts on one entry, of a node in `p`. -/
theorem State.Worn.of_slotEffect {i : SlotIx} {e : Entry} {f : Entry → Entry} {H : Host → HostState → HostState} {asks : Bool}
    (he : s.entry i = some e) (hp : p e.node = true)
    (heff : SlotEffect s t i { s.slots.get i with entry := some (f e) } H (fun l q => if asks = true ∧ nodeLink e.node = l then q ++ [s.item i] else q))
    (hf : e.Worn 0 (f e)) : s.Worn p [] t where
  entries j := by
    by_cases hj : j = i
    · subst hj
      rw [heff.entry, he]
      exact .some (by rw [Entry.WornIf, if_pos hp]; exact hf)
    · rw [heff.entry_other hj]
      exact rel_refl .refl _
  generation j := by
    by_cases hj : j = i
    · subst hj; rw [heff.slot]
    · rw [heff.others j hj]
  polls l := by
    rw [heff.polls]
    split
    · rw [List.filter_append, List.filter_singleton]
      have hout : s.outside p (s.item i) = false := by simp [State.outside, State.item, he, hp]
      simp [hout]
    · rfl

/-- R23: a failed write. -/
theorem mirrorWriteFailed_worn (r : WriteRecord) (hp : p r.node = true) (s : State) :
    s.Worn p [r] (mirrorWriteFailed r.node r.address r.data.length s) := by
  have ha := mirrorWriteFailed_applied r.node r.address r.data.length s
  have hreaches (e : Entry) : e.touchedBy r.node r.address.toNat r.data.length = r.reaches e := by
    refine Bool.eq_iff_iff.2 ((e.touchedBy_iff ..).trans ?_)
    rw [WriteRecord.reaches, decide_eq_true_eq, eq_comm (a := e.node)]
  refine ⟨fun i => ?_, fun i => by rw [ha.slots], fun l => ?_⟩
  · rw [ha.entry]
    cases he : s.entry i with
    | none => exact .none
    | some e =>
      refine .some ?_
      rw [Entry.WornIf, List.countP_singleton]
      simp only [EntryRule.when, hreaches]
      by_cases hreach : r.reaches e = true
      · have hnode : p e.node = true := by
          simp only [WriteRecord.reaches, decide_eq_true_eq] at hreach
          exact hreach.1 ▸ hp
        rw [if_pos hnode, if_pos hreach, if_pos hreach]
        change e.Worn 1 e.writeFailed.asked
        rw [Entry.Worn, e.writeFailed_asked]
        rfl
      · rw [if_neg hreach, if_neg hreach]
        split
        · exact .of_same e e rfl
        · rfl
  · rw [ha.polls, List.filter_append]
    refine (congrArg ((s.pollQueues.get l).filter (s.outside p) ++ ·) (List.filter_eq_nil_iff.2 fun item hitem => ?_)).trans (List.append_nil _)
    obtain ⟨i, hi, rfl⟩ := List.mem_map.1 hitem
    obtain ⟨e, he, hask⟩ := (Option.any_eq_true ..).1 (List.mem_filter.1 hi).2
    simp only [EntryRule.when, hreaches, WriteRecord.reaches, Bool.and_eq_true, decide_eq_true_eq] at hask
    have hnode : p e.node = true := hask.1.1.1 ▸ hp
    simp [State.outside, State.item, he, hnode]

theorem finishWrite_slots (l : Link) (r : WriteRecord) (o : Reason) (s : State) :
    (finishWrite l r o s).slots = (mirrorEnding r o s).slots ∧ (finishWrite l r o s).pollQueues = (mirrorEnding r o s).pollQueues := by
  obtain ⟨hslots, hpolls⟩ := Prod.mk.inj (finishWrite_entryView l r o s)
  have htold : (tellEnding r o s).slots = (mirrorEnding r o s).slots ∧ (tellEnding r o s).pollQueues = (mirrorEnding r o s).pollQueues := by
    unfold tellEnding
    split <;> exact ⟨rfl, rfl⟩
  exact ⟨hslots.trans htold.1, hpolls.trans htold.2⟩

/-- R55: the write queue's part leaves the entries. -/
theorem finishWrite_worn {r : WriteRecord} (hp : p r.node = true) {why : Reason} (hwhy : why ≠ .ok) (l : Link) (s : State) :
    s.Worn p [r] (finishWrite l r why s) := by
  obtain ⟨hslots, hpolls⟩ := finishWrite_slots l r why s
  rw [mirrorEnding, if_neg hwhy] at hslots hpolls
  have hmirror := mirrorWriteFailed_worn r hp s
  have hafter : (mirrorWriteFailed r.node r.address r.data.length s).Worn p [] (finishWrite l r why s) := .of_same hslots hpolls
  exact hmirror.trans hafter

/-- A reason with which the arbiters end requests themselves (R123, R124). -/
def Reason.imposed (why : Reason) : Prop :=
  why = .linkDown ∨ why = .stopped ∨ why = .nodeLost ∨ why = .nodeRestarted ∨ why = .quarantined

theorem Reason.imposed.ne_ok {why : Reason} (h : why.imposed) : why ≠ .ok := by
  rintro rfl
  simp [Reason.imposed] at h

/-- An entry whose poll has ended. -/
abbrev Entry.unpolled (e : Entry) : Entry := { e with phase := .idle, repoll := false }

/-- R21: a poll that ends with an imposed reason leaves its entry IDLE, or queued again. -/
theorem applyPollEnding_imposed {why : Reason} (hwhy : why.imposed) (i : SlotIx) (g : Byte) (n : Node) (a : Word16) (len : Nat)
    (epoch : Word16) (data : List Byte) (s : State) : applyPollEnding i g n a len epoch why data s = s ∨ ∃ e, s.entry i = some e ∧ e.node = n
      ∧ (applyPollEnding i g n a len epoch why data s = s.modEntry i Entry.unpolled
        ∨ applyPollEnding i g n a len epoch why data s = queuePoll i (s.modEntry i Entry.unpolled)) := by
  unfold applyPollEnding pollApplies
  cases he : s.entry i with
  | none => exact .inl rfl
  | some e =>
    dsimp only
    split
    · exact .inl rfl
    · next happlies =>
      simp only [Bool.not_eq_true', Bool.not_eq_false, decide_eq_true_eq] at happlies
      refine .inr ⟨e, rfl, happlies.2.1, ?_⟩
      split
      · exact .inl rfl
      · rcases hwhy with rfl | rfl | rfl | rfl | rfl
        all_goals
          dsimp only
          split
          · exact .inr rfl
          · exact .inl rfl

theorem applyPollEnding_worn {why : Reason} (hwhy : why.imposed) (i : SlotIx) (g : Byte) {n : Node} (hp : p n = true) (a : Word16)
    (len : Nat) (epoch : Word16) (data : List Byte) (s : State) : s.Worn p [] (applyPollEnding i g n a len epoch why data s) := by
  rcases applyPollEnding_imposed hwhy i g n a len epoch data s with heq | ⟨e, he, rfl, heq | heq⟩ <;> rw [heq]
  · exact .of_same rfl rfl
  · exact .of_slotEffect (f := Entry.unpolled) (asks := false) he hp
      ((SlotEffect.modEntry he Entry.unpolled).congr rfl (fun _ _ => rfl) fun _ _ => by simp) (.of_same e e.unpolled rfl)
  · refine .of_slotEffect (f := fun e => e.unpolled.asked) he hp (SlotEffect.modEntry he Entry.unpolled).thenQueuePoll
      (.of_same e e.unpolled.asked ?_)
    unfold Entry.asked
    split <;> rfl

end

end Sys2Proof.Machine

/-!
# What the arbiters and the write queues tell when they end work themselves (R56, R59, R60, R123, R124, R129)
-/

namespace Sys2Proof.Machine

set_option Elab.async false

/-- What is told, and what is left of the entries of the nodes `p`. -/
structure State.Hands (p : Node → Bool) (ws : List WriteRecord) (xs : Host → List (Option EventBody × Bool))
    (fs : Host → List FetchResult) (s t : State) : Prop where
  tells : State.Tells ws xs fs s t
  worn : s.Worn p ws t

/-- And the records `ws` leave link `l`'s queue, one after another. -/
structure State.Ends (p : Node → Bool) (l : Link) (ws : List WriteRecord) (xs : Host → List (Option EventBody × Bool))
    (fs : Host → List FetchResult) (s t : State) : Prop extends State.Hands p ws xs fs s t where
  queues : t.writeQueues = upd s.writeQueues l fun q => { q with order := ws.foldl List.erase q.order }

section
variable {p : Node → Bool} {l : Link} {ws ws' : List WriteRecord} {xs xs' : Host → List (Option EventBody × Bool)}
variable {fs fs' : Host → List FetchResult} {s t u : State}

theorem State.Hands.trans (h : State.Hands p ws xs fs s t) (h' : State.Hands p ws' xs' fs' t u) :
    State.Hands p (ws ++ ws') (fun g => xs g ++ xs' g) (fun g => fs g ++ fs' g) s u := ⟨h.tells.trans h'.tells, h.worn.trans h'.worn⟩

theorem State.Hands.congr (h : State.Hands p ws xs fs s t) (hws : ws' = ws) (hxs : ∀ g, xs' g = xs g) (hfs : ∀ g, fs' g = fs g) :
    State.Hands p ws' xs' fs' s t := by
  subst hws
  exact ⟨h.tells.congr hxs hfs, h.worn⟩

theorem State.Ends.trans (h : State.Ends p l ws xs fs s t) (h' : State.Ends p l ws' xs' fs' t u) :
    State.Ends p l (ws ++ ws') (fun g => xs g ++ xs' g) (fun g => fs g ++ fs' g) s u where
  toHands := h.toHands.trans h'.toHands
  queues := by
    rw [h'.queues, h.queues, upd_upd]
    simp only [List.foldl_append]

theorem State.Ends.congr (h : State.Ends p l ws xs fs s t) (hws : ws' = ws) (hxs : ∀ g, xs' g = xs g) (hfs : ∀ g, fs' g = fs g) :
    State.Ends p l ws' xs' fs' s t := by
  subst hws
  exact ⟨h.toHands.congr rfl hxs hfs, h.queues⟩

theorem State.Hands.of_same (hslots : t.slots = s.slots) (hpolls : t.pollQueues = s.pollQueues) (hhosts : t.hosts = s.hosts)
    (hcovered : ∀ h, t.coveredCount h = s.coveredCount h) (htime : t.timeBase = s.timeBase) :
    State.Hands p [] (fun _ => []) (fun _ => []) s t := ⟨.of_covered hhosts hcovered htime, .of_same hslots hpolls⟩

theorem State.Ends.of_same (hslots : t.slots = s.slots) (hpolls : t.pollQueues = s.pollQueues) (hhosts : t.hosts = s.hosts)
    (hwrites : t.writeQueues = s.writeQueues) (htime : t.timeBase = s.timeBase) : State.Ends p l [] (fun _ => []) (fun _ => []) s t where
  tells := .of_same hhosts hwrites htime
  worn := .of_same hslots hpolls
  queues := by
    rw [hwrites]
    exact (upd_id ..).symm

/-! ## One owner -/

theorem finishWrite_ends {r : WriteRecord} {why : Reason} (hwhy : why ≠ .ok) (hp : p r.node = true) (hr : r ∈ (s.writeQueues.get l).order) :
    State.Ends p l [r] (fun h => (r.failing h why).toList) (fun _ => []) s (finishWrite l r why s) :=
  ⟨⟨finishWrite_tells hwhy hr, finishWrite_worn hp hwhy l s⟩, finishWrite_writeQueues l r why s⟩

theorem finishFetch_ends (g : Host) (ticket : Byte) (reported : Bool) (n : Node) (address : Word16) (length : Nat) (why : Reason)
    (s : State) : State.Ends p l [] (fetchTold g ticket reported n why) (fetchResult g ticket reported n address length why) s
      (finishFetch g ticket reported n address length why [] s) := by
  have hread {α : Type} {f : State → α} (hf : IgnoresHosts f) : f (finishFetch g ticket reported n address length why [] s) = f s :=
    finishFetch_read hf ..
  refine ⟨⟨finishFetch_tells .., .of_same (hread fun _ _ _ => rfl) (hread fun _ _ _ => rfl)⟩, ?_⟩
  rw [hread (f := State.writeQueues) fun _ _ _ => rfl]
  exact (upd_id ..).symm

theorem applyPollEnding_ends {why : Reason} (hwhy : why.imposed) (i : SlotIx) (g : Byte) {n : Node} (hp : p n = true) (a : Word16)
    (len : Nat) (epoch : Word16) (data : List Byte) (s : State) :
    State.Ends p l [] (fun _ => []) (fun _ => []) s (applyPollEnding i g n a len epoch why data s) := by
  have hread {α : Type} {f : State → α} (hslots : IgnoresSlots f) (hpolls : IgnoresPolls f) :
      f (applyPollEnding i g n a len epoch why data s) = f s := by
    rcases applyPollEnding_imposed hwhy i g n a len epoch data s with heq | ⟨e, -, -, heq | heq⟩ <;> rw [heq]
    · exact hslots _ _ _
    · rw [queuePoll_read hslots hpolls]
      exact hslots _ _ _
  have hwrites : (applyPollEnding i g n a len epoch why data s).writeQueues = s.writeQueues := hread (fun _ _ _ => rfl) fun _ _ _ => rfl
  refine ⟨⟨.of_same (hread (fun _ _ _ => rfl) fun _ _ _ => rfl) hwrites (hread (fun _ _ _ => rfl) fun _ _ _ => rfl),
    applyPollEnding_worn hwhy i g hp a len epoch data s⟩, ?_⟩
  rw [hwrites]
  exact (upd_id ..).symm

/-! ## Requests in flight -/

/-- The OUTSTANDING records of a node. -/
def WriteQueue.outstandingOf (q : WriteQueue) (n : Node) : List WriteRecord :=
  q.order.filter fun x => x.node = n ∧ x.state = .outstanding

/-- What host `h` is told of the request that the arbiter ends with a tag. -/
def State.tagTold (s : State) (l : Link) (p : Node → Bool) (write fetch : Reason) (h : Host) (t : Tag) : List (Option EventBody × Bool) :=
  match s.request l t with
  | none => []
  | some r =>
    if p r.node then match r.kind with
      | .write => ((s.writeQueues.get l).outstandingOf r.node).filterMap (WriteRecord.failing h write)
      | .fetch g ticket reported => fetchTold g ticket reported r.node fetch h
      | .poll _ _ _ | .ident => []
    else []

/-- What its fetch buffer takes. -/
def State.tagResults (s : State) (l : Link) (p : Node → Bool) (fetch : Reason) (h : Host) (t : Tag) : List FetchResult :=
  match s.request l t with
  | none => []
  | some r =>
    if p r.node then match r.kind with
      | .fetch g ticket reported => fetchResult g ticket reported r.node r.address r.length fetch h
      | .poll _ _ _ | .write | .ident => []
    else []

/-- The write records that fail with it. -/
def State.tagWrites (s : State) (l : Link) (p : Node → Bool) (t : Tag) : List WriteRecord :=
  match s.request l t with
  | none => []
  | some r => if p r.node && r.isWrite then (s.writeQueues.get l).outstandingOf r.node else []

/-- Among the tags `ts` the requests of the nodes `p` are to end, and each WRITE of theirs has its one OUTSTANDING record, and is the
only one of its node. -/
structure State.Ready (s : State) (l : Link) (p : Node → Bool) (ends : Request → Bool) (ts : List Tag) : Prop where
  ends : ∀ t ∈ ts, ∀ r ∈ s.request l t, r.isIdent = false → ends r = p r.node
  record : ∀ t ∈ ts, ∀ r ∈ s.request l t, p r.node = true → r.isWrite = true → ∃ w, (s.writeQueues.get l).outstandingOf r.node = [w]
  single : ∀ t ∈ ts, ∀ r ∈ s.request l t, p r.node = true → r.isWrite = true →
    ∀ u ∈ ts, u ≠ t → ∀ x ∈ s.request l u, x.isWrite = true → x.node ≠ r.node

theorem State.Ready.sublist {ends : Request → Bool} {ts ts' : List Tag} (h : s.Ready l p ends ts) (hts : ts'.Sublist ts) :
    s.Ready l p ends ts' :=
  ⟨fun t ht => h.ends t (hts.subset ht), fun t ht => h.record t (hts.subset ht),
    fun t ht r hr hp hw u hu => h.single t (hts.subset ht) r hr hp hw u (hts.subset hu)⟩

theorem State.Ready.congr {ends : Request → Bool} {ts : List Tag} (h : s.Ready l p ends ts)
    (hrequest : ∀ t ∈ ts, u.request l t = s.request l t)
    (hout : ∀ t ∈ ts, ∀ r ∈ s.request l t, p r.node = true → r.isWrite = true →
      (u.writeQueues.get l).outstandingOf r.node = (s.writeQueues.get l).outstandingOf r.node) : u.Ready l p ends ts := by
  refine ⟨fun t ht r hr => ?_, fun t ht r hr hp hw => ?_, fun t ht r hr hp hw v hv hne x hx => ?_⟩
  · exact h.ends t ht r (hrequest t ht ▸ hr)
  · have hr := hrequest t ht ▸ hr
    rw [hout t ht r hr hp hw]
    exact h.record t ht r hr hp hw
  · exact h.single t ht r (hrequest t ht ▸ hr) hp hw v hv hne x (hrequest v hv ▸ hx)

theorem WriteQueue.outstanding_eq (q : WriteQueue) (n : Node) : q.outstanding n = (q.outstandingOf n).head? := by
  rw [WriteQueue.outstanding, WriteQueue.outstandingOf, List.head?_filter]

theorem outstanding_of_singleton {q : WriteQueue} {n : Node} {w : WriteRecord} (h : q.outstandingOf n = [w]) : q.outstanding n = some w := by
  rw [q.outstanding_eq, h]
  rfl

theorem mem_outstandingOf {q : WriteQueue} {n : Node} {w : WriteRecord} : w ∈ q.outstandingOf n ↔ w ∈ q.order ∧ w.node = n ∧ w.state = .outstanding := by
  rw [WriteQueue.outstandingOf, List.mem_filter, decide_eq_true_eq]

/-- A WRITE ends with one imposed reason, and the others with one. -/
structure EndRule (writeWhy fetchWhy : Reason) (why : Request → Reason) : Prop where
  write : ∀ r, r.isWrite = true → why r = writeWhy
  fetch : ∀ r, r.isWrite = false → why r = fetchWhy
  imposedWrite : writeWhy.imposed
  imposedFetch : fetchWhy.imposed

theorem endTag_ends {write fetch : Reason} {ends : Request → Bool} {why : Request → Reason} (hrule : EndRule write fetch why)
    {t : Tag} (hready : s.Ready l p ends [t]) :
    State.Ends p l (s.tagWrites l p t) (fun h => s.tagTold l p write fetch h t) (fun h => s.tagResults l p fetch h t) s
      (endTag l ends why t s) := by
  unfold endTag State.tagWrites State.tagTold State.tagResults
  cases hr : s.request l t with
  | none => exact .of_same rfl rfl rfl rfl rfl
  | some r =>
    have hwithdraw : State.Ends p l [] (fun _ => []) (fun _ => []) s (withdraw l t s) := .of_same rfl rfl rfl rfl rfl
    dsimp only
    cases hk : r.kind with
    | ident =>
      have hw : r.isWrite = false := by simp [Request.isWrite, hk]
      have hsame : handOver l r (why r) [] (withdraw l t s) = withdraw l t s := by simp [handOver, hk]
      rw [hsame]
      have hnone : State.Ends p l [] (fun _ => []) (fun _ => []) s (if ends r = true then withdraw l t s else s) := by
        split
        · exact hwithdraw
        · exact .of_same rfl rfl rfl rfl rfl
      exact hnone.congr (by simp [hw]) (fun h => by simp) fun h => by simp
    | poll i g ep =>
      have hw : r.isWrite = false := by simp [Request.isWrite, hk]
      rw [hready.ends t List.mem_cons_self r hr (by simp [Request.isIdent, hk])]
      by_cases hp : p r.node = true
      · have hended : State.Ends p l [] (fun _ => []) (fun _ => []) s (handOver l r (why r) [] (withdraw l t s)) := by
          simp only [handOver, hk]
          refine hwithdraw.trans (applyPollEnding_ends ?_ i g hp ..)
          rw [hrule.fetch r hw]
          exact hrule.imposedFetch
        rw [if_pos hp]
        exact hended.congr (by simp [hw]) (fun h => by simp) fun h => by simp
      · rw [if_neg hp]
        exact State.Ends.congr (.of_same rfl rfl rfl rfl rfl) (by simp [hw]) (fun h => by simp [hp]) fun h => by simp [hp]
    | fetch g ticket reported =>
      have hw : r.isWrite = false := by simp [Request.isWrite, hk]
      rw [hready.ends t List.mem_cons_self r hr (by simp [Request.isIdent, hk])]
      by_cases hp : p r.node = true
      · have hended := hwithdraw.trans (finishFetch_ends (p := p) (l := l) g ticket reported r.node r.address r.length fetch (withdraw l t s))
        rw [if_pos hp, show handOver l r (why r) [] (withdraw l t s) = finishFetch g ticket reported r.node r.address r.length fetch []
          (withdraw l t s) by simp only [handOver, hk, hrule.fetch r hw]]
        exact hended.congr (by simp [hw]) (fun h => by simp [hp]) fun h => by simp [hp]
      · rw [if_neg hp]
        exact State.Ends.congr (.of_same rfl rfl rfl rfl rfl) (by simp [hw]) (fun h => by simp [hp]) fun h => by simp [hp]
    | write =>
      have hw : r.isWrite = true := by simp [Request.isWrite, hk]
      rw [hready.ends t List.mem_cons_self r hr (by simp [Request.isIdent, hk])]
      by_cases hp : p r.node = true
      · obtain ⟨w, hout⟩ := hready.record t List.mem_cons_self r hr hp hw
        have hmem := mem_outstandingOf.1 (hout ▸ List.mem_singleton_self w)
        have hended := hwithdraw.trans (finishWrite_ends (p := p) (l := l) (s := withdraw l t s) hrule.imposedWrite.ne_ok
          (by rw [hmem.2.1]; exact hp) (show w ∈ ((withdraw l t s).writeQueues.get l).order from hmem.1))
        have hfound : ((withdraw l t s).writeQueues.get l).outstanding r.node = some w := outstanding_of_singleton hout
        rw [if_pos hp, show handOver l r (why r) [] (withdraw l t s) = finishWrite l w write (withdraw l t s) by
          simp only [handOver, hk, hfound, hrule.write r hw]]
        refine hended.congr (by simp [hw, hp, hout]) (fun h => ?_) fun h => by simp
        simp only [hp, if_true, hout, List.nil_append, List.filterMap_cons, List.filterMap_nil]
        cases w.failing h write <;> rfl
      · rw [if_neg hp]
        exact State.Ends.congr (.of_same rfl rfl rfl rfl rfl) (by simp [hp]) (fun h => by simp [hp]) fun h => by simp

/-- A record that is not selected may go. -/
theorem filter_erase_of_neg {α : Type} [BEq α] [LawfulBEq α] {q : α → Bool} {a : α} (ha : q a = false) (xs : List α) :
    (xs.erase a).filter q = xs.filter q := by
  induction xs with
  | nil => rfl
  | cons x xs ih =>
    rw [List.erase_cons]
    split
    · next hx => rw [List.filter_cons, eq_of_beq hx, ha]; rfl
    · rw [List.filter_cons, List.filter_cons, ih]

theorem endTag_request (l : Link) (ends : Request → Bool) (why : Request → Reason) {t u : Tag} (hu : u ≠ t) (s : State) :
    (endTag l ends why t s).request l u = s.request l u := by
  unfold endTag
  split
  · rfl
  · split
    · rw [State.request, handOver_arbiters]
      refine Eq.trans (b := (withdraw l t s).request l u) rfl ?_
      rw [withdraw_request, if_neg fun h => hu h.2]
    · rfl

/-- The OUTSTANDING records of other nodes stay. -/
theorem State.Ends.outstandingOf (h : State.Ends p l ws xs fs s t) {n : Node} (hws : ∀ w ∈ ws, w.node ≠ n) :
    (t.writeQueues.get l).outstandingOf n = (s.writeQueues.get l).outstandingOf n := by
  rw [h.queues, get_upd_self, WriteQueue.outstandingOf, WriteQueue.outstandingOf]
  dsimp only
  clear h
  generalize (s.writeQueues.get l).order = order
  induction ws generalizing order with
  | nil => rfl
  | cons w ws ih =>
    have hw : w.node ≠ n := hws w List.mem_cons_self
    rw [List.foldl_cons, ih (fun x hx => hws x (List.mem_cons_of_mem _ hx)), filter_erase_of_neg (by simp [hw])]

/-- The listings of one tag, for two states with the same request and the same OUTSTANDING records. -/
theorem State.tag_congr {t : Tag} (hrequest : u.request l t = s.request l t)
    (hout : ∀ r ∈ s.request l t, p r.node = true → r.isWrite = true →
      (u.writeQueues.get l).outstandingOf r.node = (s.writeQueues.get l).outstandingOf r.node) (write fetch : Reason) :
    u.tagWrites l p t = s.tagWrites l p t ∧ (∀ h, u.tagTold l p write fetch h t = s.tagTold l p write fetch h t)
      ∧ ∀ h, u.tagResults l p fetch h t = s.tagResults l p fetch h t := by
  unfold State.tagWrites State.tagTold State.tagResults
  rw [hrequest]
  cases hr : s.request l t with
  | none => exact ⟨rfl, fun _ => rfl, fun _ => rfl⟩
  | some r =>
    by_cases hp : p r.node = true
    · cases hk : r.kind with
      | write =>
        have hw : r.isWrite = true := by simp [Request.isWrite, hk]
        simp [hw, hp, hout r hr hp hw]
      | _ => simp [Request.isWrite, hk]
    · simp [hp]

/-- R123, R124: the requests in flight end in ascending tag. -/
theorem endTags_ends {write fetch : Reason} {ends : Request → Bool} {why : Request → Reason} (hrule : EndRule write fetch why)
    {ts : List Tag} (hts : ts.Nodup) (hready : s.Ready l p ends ts) :
    State.Ends p l (ts.flatMap (s.tagWrites l p)) (fun h => ts.flatMap (s.tagTold l p write fetch h))
      (fun h => ts.flatMap (s.tagResults l p fetch h)) s (ts.foldl (fun s t => endTag l ends why t s) s) := by
  induction ts generalizing s with
  | nil => exact .of_same rfl rfl rfl rfl rfl
  | cons t ts ih =>
    obtain ⟨ht, hts⟩ := List.nodup_cons.1 hts
    have hone := endTag_ends hrule (hready.sublist (List.singleton_sublist.2 List.mem_cons_self))
    have hrequest {v : Tag} (hv : v ∈ ts) : (endTag l ends why t s).request l v = s.request l v :=
      endTag_request l ends why (by rintro rfl; exact ht hv) s
    have hout {v : Tag} (hv : v ∈ ts) : ∀ x ∈ s.request l v, p x.node = true → x.isWrite = true →
        ((endTag l ends why t s).writeQueues.get l).outstandingOf x.node = (s.writeQueues.get l).outstandingOf x.node := by
      intro x hx _ hxw
      refine hone.outstandingOf fun w hw => ?_
      unfold State.tagWrites at hw
      cases hr : s.request l t with
      | none => simp [hr] at hw
      | some r =>
        rw [hr] at hw
        dsimp only at hw
        split at hw
        · next hpw =>
          simp only [Bool.and_eq_true] at hpw
          rw [(mem_outstandingOf.1 hw).2.1]
          exact (hready.single t List.mem_cons_self r hr hpw.1 hpw.2 v (List.mem_cons_of_mem _ hv) (by rintro rfl; exact ht hv) x hx hxw).symm
        · cases hw
    have hready' : (endTag l ends why t s).Ready l p ends ts :=
      (hready.sublist (List.sublist_cons_self ..)).congr (fun v hv => hrequest hv) fun v hv => hout hv
    have hsame {v : Tag} (hv : v ∈ ts) := State.tag_congr (hrequest hv) (hout hv) write fetch
    refine (hone.trans (ih hts hready')).congr ?_ (fun h => ?_) fun h => ?_
    · rw [List.flatMap_cons]
      exact congrArg _ (List.flatMap_congr fun v hv => (hsame hv).1).symm
    · rw [List.flatMap_cons]
      exact congrArg _ (List.flatMap_congr fun v hv => (hsame hv).2.1 h).symm
    · rw [List.flatMap_cons]
      exact congrArg _ (List.flatMap_congr fun v hv => (hsame hv).2.2 h).symm

/-- R97, R123, R124: all requests in flight of the nodes `p`. -/
theorem endRequests_ends {write fetch : Reason} {ends : Request → Bool} {why : Request → Reason} (hrule : EndRule write fetch why)
    (hready : s.Ready l p ends (List.finRange 8)) :
    State.Ends p l ((List.finRange 8).flatMap (s.tagWrites l p)) (fun h => (List.finRange 8).flatMap (s.tagTold l p write fetch h))
      (fun h => (List.finRange 8).flatMap (s.tagResults l p fetch h)) s (endRequests l ends why s) := by
  obtain ⟨line, harbiters, -⟩ := keepBegunOf_line l ends s
  have hread {α : Type} {f : State → α} (hf : IgnoresArbiters f) (hc : IgnoresChoices f) : f (keepBegunOf l ends s) = f s :=
    keepBegunOf_read hf hc ..
  have hwrites : (keepBegunOf l ends s).writeQueues = s.writeQueues := hread (fun _ _ _ => rfl) fun _ _ => rfl
  have hkept : State.Ends p l [] (fun _ => []) (fun _ => []) s (keepBegunOf l ends s) :=
    .of_same (hread (fun _ _ _ => rfl) fun _ _ => rfl) (hread (fun _ _ _ => rfl) fun _ _ => rfl)
      (hread (fun _ _ _ => rfl) fun _ _ => rfl) hwrites (hread (fun _ _ _ => rfl) fun _ _ => rfl)
  have hrequest (t : Tag) : (keepBegunOf l ends s).request l t = s.request l t := by
    rw [State.request, harbiters, get_upd_self]
    rfl
  have hsame (t : Tag) := State.tag_congr (p := p) (hrequest t) (fun r _ _ _ => by rw [hwrites]) write fetch
  have hready' : (keepBegunOf l ends s).Ready l p ends (List.finRange 8) :=
    hready.congr (fun t _ => hrequest t) fun t _ r _ _ _ => by rw [hwrites]
  rw [endRequests_eq]
  refine (hkept.trans (endTags_ends hrule (List.nodup_finRange 8) hready')).congr ?_ (fun h => ?_) fun h => ?_
  · exact List.flatMap_congr fun t _ => (hsame t).1.symm
  · exact List.flatMap_congr fun t _ => ((hsame t).2.1 h).symm
  · exact List.flatMap_congr fun t _ => ((hsame t).2.2 h).symm

/-! ## Pending fetches -/

theorem endFetches_ends (q : FetchItem → Bool) (why : Reason) (s : State) :
    State.Ends p l [] (fun h => ((s.arbiters.get l).fetches.filter q).flatMap fun f => fetchTold f.host f.ticket f.reported f.node why h)
      (fun h => ((s.arbiters.get l).fetches.filter q).flatMap fun f =>
        fetchResult f.host f.ticket f.reported f.node f.address f.length why h) s (endFetches l q why s) := by
  have hfold (items : List FetchItem) (u : State) :
      State.Ends p l [] (fun h => items.flatMap fun f => fetchTold f.host f.ticket f.reported f.node why h)
        (fun h => items.flatMap fun f => fetchResult f.host f.ticket f.reported f.node f.address f.length why h) u
        (items.foldl (fun s f => finishFetch f.host f.ticket f.reported f.node f.address f.length why [] s) u) := by
    induction items generalizing u with
    | nil => exact .of_same rfl rfl rfl rfl rfl
    | cons f items ih => exact (finishFetch_ends f.host f.ticket f.reported f.node f.address f.length why u).trans (ih _)
  have htaken : State.Ends p l [] (fun _ => []) (fun _ => []) s
      (s.modArbiter l fun a => { a with fetches := a.fetches.filter fun f => !q f }) := .of_same rfl rfl rfl rfl rfl
  exact htaken.trans (hfold _ _)

/-! ## Taken writes -/

theorem failWrites_ends {q : WriteRecord → Bool} {why : Reason} (hwhy : why ≠ .ok)
    (hq : ∀ r ∈ (s.writeQueues.get l).order, q r = true → p r.node = true) :
    State.Ends p l ((s.writeQueues.get l).order.filter q)
      (fun h => ((s.writeQueues.get l).order.filter q).filterMap (WriteRecord.failing h why)) (fun _ => []) s (failWrites l q why s) := by
  have hfold (rs : List WriteRecord) (u : State) (hrs : rs.Subperm (u.writeQueues.get l).order) (hp : ∀ r ∈ rs, p r.node = true) :
      State.Ends p l rs (fun h => rs.filterMap (WriteRecord.failing h why)) (fun _ => []) u
        (rs.foldl (fun s r => finishWrite l r why s) u) := by
    induction rs generalizing u with
    | nil => exact .of_same rfl rfl rfl rfl rfl
    | cons r rs ih =>
      have hr : r ∈ (u.writeQueues.get l).order := hrs.subset List.mem_cons_self
      have hone := finishWrite_ends (l := l) hwhy (hp r List.mem_cons_self) hr
      have hrest : rs.Subperm ((finishWrite l r why u).writeQueues.get l).order := by
        rw [hone.queues, get_upd_self]
        simpa using hrs.erase r
      refine (hone.trans (ih _ hrest fun x hx => hp x (List.mem_cons_of_mem _ hx))).congr rfl (fun h => ?_) fun h => rfl
      rw [List.filterMap_cons]
      cases r.failing h why <;> rfl
  exact hfold _ s List.filter_sublist.subperm fun r hr => hq r (List.mem_of_mem_filter hr) (List.of_mem_filter hr)

end

end Sys2Proof.Machine

/-!
# The arbiter and the write queue end their work in either order (R53, R54, R80, R104)
-/

namespace Sys2Proof.Machine

set_option Elab.async false

/-! ## WRITE requests and OUTSTANDING records -/

/-- The tags of the WRITE requests of a node. -/
def State.writeTags (s : State) (l : Link) (n : Node) : List Tag :=
  (List.finRange 8).filter fun t => (s.request l t).any fun r => r.isWrite && decide (r.node = n)

/-- R53, R54, R112: at most one of each, and the one just when the other. -/
structure State.Matched (s : State) (l : Link) (n : Node) : Prop where
  same : ((s.writeQueues.get l).outstandingOf n).length = (s.writeTags l n).length
  single : (s.writeTags l n).length ≤ 1

theorem State.matched_of_outstandingOk {s : State} (h : s.outstandingOk) (l : Link) (n : Node) : s.Matched l n :=
  ⟨((h l).2.2 n).1, ((h l).2.2 n).2⟩

section
variable {s t : State} {l : Link} {n : Node} {p : Node → Bool}

theorem State.mem_writeTags {g : Tag} : g ∈ s.writeTags l n ↔ ∃ r ∈ s.request l g, r.isWrite = true ∧ r.node = n := by
  rw [State.writeTags, List.mem_filter, Option.any_eq_true]
  simp

theorem State.request_of_arbiters (h : t.arbiters = s.arbiters) (g : Tag) : t.request l g = s.request l g := by
  rw [State.request, h, State.request]

theorem State.Matched.of_same (h : s.Matched l n) (hrequest : ∀ g, t.request l g = s.request l g)
    (hout : (t.writeQueues.get l).outstandingOf n = (s.writeQueues.get l).outstandingOf n) : t.Matched l n := by
  have htags : t.writeTags l n = s.writeTags l n := by simp only [State.writeTags, hrequest]
  exact ⟨by rw [hout, htags, h.same], by rw [htags]; exact h.single⟩

theorem eq_of_mem_of_length_le_one {α : Type} {xs : List α} (h : xs.length ≤ 1) {a b : α} (ha : a ∈ xs) (hb : b ∈ xs) : a = b := by
  match xs, h with
  | [], _ => cases ha
  | [x], _ => rw [List.mem_singleton.1 ha, List.mem_singleton.1 hb]

theorem State.ready_of_matched (h : ∀ n, s.Matched l n) {ends : Request → Bool}
    (hends : ∀ g, ∀ r ∈ s.request l g, r.isIdent = false → ends r = p r.node) : s.Ready l p ends (List.finRange 8) := by
  refine ⟨fun g _ => hends g, fun g _ r hr _ hw => ?_, fun g _ r hr _ hw u _ hu x hx hxw hnode => ?_⟩
  · have hmem : g ∈ s.writeTags l r.node := State.mem_writeTags.2 ⟨r, hr, hw, rfl⟩
    have hpos := List.length_pos_of_mem hmem
    have hsingle := (h r.node).single
    exact List.length_eq_one_iff.1 ((h r.node).same.trans (by omega))
  · exact hu (eq_of_mem_of_length_le_one (h r.node).single (State.mem_writeTags.2 ⟨x, hx, hxw, hnode⟩)
      (State.mem_writeTags.2 ⟨r, hr, hw, rfl⟩))

/-- The records that end with their requests: the OUTSTANDING ones of the nodes `p`. -/
def WriteRecord.endsOf (p : Node → Bool) (r : WriteRecord) : Bool := p r.node && decide (r.state = .outstanding)

theorem State.mem_tagWrites {w : WriteRecord} {g : Tag} : w ∈ s.tagWrites l p g
    ↔ ∃ r ∈ s.request l g, p r.node = true ∧ r.isWrite = true ∧ w ∈ (s.writeQueues.get l).outstandingOf r.node := by
  unfold State.tagWrites
  cases s.request l g with
  | none => simp
  | some r => by_cases hp : p r.node = true <;> by_cases hw : r.isWrite = true <;> simp [hp, hw]

/-- The records that fail with the requests of the nodes `p` are the OUTSTANDING ones of these nodes. -/
theorem State.tagWrites_perm (h : ∀ n, s.Matched l n) :
    ((List.finRange 8).flatMap (s.tagWrites l p)).Perm ((s.writeQueues.get l).order.filter (WriteRecord.endsOf p)) := by
  have hlength (n : Node) : ((s.writeQueues.get l).outstandingOf n).length ≤ 1 := (h n).same ▸ (h n).single
  have hnodup (n : Node) : ((s.writeQueues.get l).outstandingOf n).Nodup :=
    List.nodup_iff_count_le_one.2 fun w => List.count_le_length.trans (hlength n)
  refine (List.perm_ext_iff_of_nodup ?_ ?_).2 fun w => ?_
  · refine List.nodup_flatMap.2 ⟨fun g _ => ?_, ?_⟩
    · unfold State.tagWrites
      cases s.request l g with
      | none => exact List.nodup_nil
      | some r =>
        dsimp only
        split
        · exact hnodup r.node
        · exact List.nodup_nil
    · refine (List.nodup_finRange 8).imp fun {g u} hgu w hw hw' => hgu ?_
      obtain ⟨r, hr, -, hrw, hwr⟩ := State.mem_tagWrites.1 hw
      obtain ⟨x, hx, -, hxw, hwx⟩ := State.mem_tagWrites.1 hw'
      have hnode := (mem_outstandingOf.1 hwr).2.1
      have hnode' := (mem_outstandingOf.1 hwx).2.1
      exact eq_of_mem_of_length_le_one (h w.node).single (State.mem_writeTags.2 ⟨r, hr, hrw, hnode.symm⟩)
        (State.mem_writeTags.2 ⟨x, hx, hxw, hnode'.symm⟩)
  · refine List.nodup_iff_count_le_one.2 fun w => ?_
    by_cases hw : w.endsOf p = true
    · have hstate : w.state = .outstanding := by simpa [WriteRecord.endsOf] using (Bool.and_eq_true_iff.1 hw).2
      rw [List.count_filter hw]
      have hcount : (s.writeQueues.get l).order.count w = ((s.writeQueues.get l).outstandingOf w.node).count w := by
        rw [WriteQueue.outstandingOf, List.count_filter (by simp [hstate])]
      rw [hcount]
      exact List.count_le_length.trans (hlength w.node)
    · rw [List.count_eq_zero.2 fun hmem => hw (List.of_mem_filter hmem)]
      exact Nat.zero_le 1
  · rw [List.mem_flatMap, List.mem_filter]
    constructor
    · rintro ⟨g, -, hg⟩
      obtain ⟨r, -, hp, -, hwr⟩ := State.mem_tagWrites.1 hg
      obtain ⟨hmem, hnode, hstate⟩ := mem_outstandingOf.1 hwr
      exact ⟨hmem, by simp [WriteRecord.endsOf, hnode, hp, hstate]⟩
    · rintro ⟨hmem, hends⟩
      have hends : p w.node = true ∧ w.state = .outstanding := by simpa [WriteRecord.endsOf] using hends
      have hout : w ∈ (s.writeQueues.get l).outstandingOf w.node := mem_outstandingOf.2 ⟨hmem, rfl, hends.2⟩
      have hpos : 0 < (s.writeTags l w.node).length := (h w.node).same ▸ List.length_pos_of_mem hout
      obtain ⟨g, hg⟩ := List.exists_mem_of_length_pos hpos
      obtain ⟨r, hr, hrw, hnode⟩ := State.mem_writeTags.1 hg
      exact ⟨g, List.mem_finRange g, State.mem_tagWrites.2 ⟨r, hr, hnode ▸ hends.1, hrw, hnode ▸ hout⟩⟩

/-- They leave, and the others keep their places. -/
theorem State.tagWrites_leave (h : ∀ n, s.Matched l n) :
    ((List.finRange 8).flatMap (s.tagWrites l p)).foldl List.erase (s.writeQueues.get l).order
      = (s.writeQueues.get l).order.filter fun r => !r.endsOf p := by
  rw [← List.diff_eq_foldl, (State.tagWrites_perm h).diff_left, List.diff_eq_foldl, foldl_erase_filter]

/-! ## What the statements call it -/

theorem State.imposed_eq (s : State) (l : Link) (p : Node → Bool) (write fetch : Reason) (h : Host) :
    s.imposed l p write fetch h = (List.finRange 8).flatMap (s.tagTold l p write fetch h)
      ++ ((s.arbiters.get l).fetches.filter fun f => p f.node).flatMap fun f => fetchTold f.host f.ticket f.reported f.node fetch h := by
  refine congrArg (· ++ _) (List.flatMap_congr fun g _ => ?_)
  unfold State.tagTold
  cases s.request l g with
  | none => rfl
  | some r => cases r.kind <;> rfl

theorem State.imposedFetches_eq (s : State) (l : Link) (p : Node → Bool) (fetch : Reason) (h : Host) :
    s.imposedFetches l p fetch h = (List.finRange 8).flatMap (s.tagResults l p fetch h)
      ++ ((s.arbiters.get l).fetches.filter fun f => p f.node).flatMap fun f =>
        fetchResult f.host f.ticket f.reported f.node f.address f.length fetch h := by
  unfold State.imposedFetches
  rw [List.filterMap_eq_flatMap_toList]
  congr 1
  · refine List.flatMap_congr fun g _ => ?_
    unfold State.tagResults
    cases s.request l g with
    | none => rfl
    | some r =>
      dsimp only
      cases r.kind with
      | fetch g ticket reported =>
        by_cases hp : p r.node = true
        · by_cases hh : g = h ∧ reported = true <;> simp [fetchResult, hp, hh]
        · simp [hp]
      | _ => simp
  · induction (s.arbiters.get l).fetches with
    | nil => rfl
    | cons f fs ih =>
      by_cases hp : p f.node = true
      · by_cases hh : f.host = h ∧ f.reported = true
        · simp [fetchResult, hp, hh, ih]
        · rw [List.filter_cons, if_neg (by simpa [hp] using hh), ih, List.filter_cons, if_pos hp, List.flatMap_cons, fetchResult, if_neg hh]
          rfl
      · simp [hp, ih]

/-- Requests and OUTSTANDING records say what is imposed. -/
theorem State.imposed_congr (hrequest : ∀ g, t.request l g = s.request l g)
    (hfetches : (t.arbiters.get l).fetches = (s.arbiters.get l).fetches)
    (hout : ∀ n, (t.writeQueues.get l).outstandingOf n = (s.writeQueues.get l).outstandingOf n) (write fetch : Reason) (h : Host) :
    t.imposed l p write fetch h = s.imposed l p write fetch h ∧ t.imposedFetches l p fetch h = s.imposedFetches l p fetch h := by
  have hsame (g : Tag) := State.tag_congr (p := p) (hrequest g)
    (fun r _ _ _ => hout r.node) write fetch
  rw [State.imposed_eq, State.imposed_eq, State.imposedFetches_eq, State.imposedFetches_eq, hfetches]
  exact ⟨congrArg (· ++ _) (List.flatMap_congr fun g _ => (hsame g).2.1 h), congrArg (· ++ _) (List.flatMap_congr fun g _ => (hsame g).2.2 h)⟩

/-! ## Both owners -/

/-- The arbiter's part on link `l`: the requests and fetches of the nodes `p` end with imposed reasons. -/
def ArbiterEnds (p : Node → Bool) (l : Link) (write fetch : Reason) (f : State → State) (s : State) : Prop :=
  ∀ u : State, u.arbiters = s.arbiters → (∀ n, u.Matched l n) →
    u.Ends p l ((List.finRange 8).flatMap (u.tagWrites l p)) (u.imposed l p write fetch) (u.imposedFetches l p fetch) (f u)

/-- The write queue's part: the records `q` fail, the others are kept as `g`, and the reservations as `m`. -/
structure WritesEnd (p : Node → Bool) (l : Link) (q : WriteRecord → Bool) (why : Reason) (g m : WriteRecord → WriteRecord)
    (k : State → State) : Prop where
  hands : ∀ u : State, (∀ r ∈ (u.writeQueues.get l).order, q r = true → p r.node = true) →
    u.Hands p ((u.writeQueues.get l).order.filter q)
      (fun h => ((u.writeQueues.get l).order.filter q).filterMap (WriteRecord.failing h why)) (fun _ => []) (k u)
  queues : ∀ u : State, (k u).writeQueues = upd u.writeQueues l fun qu =>
    { qu with order := (qu.order.filter fun r => !q r).map g, reserved := qu.reserved.map m }
  arbiters : ∀ u : State, (k u).arbiters = u.arbiters
  apart : ∀ r, q r = true → r.state ≠ .outstanding
  node : ∀ r, (g r).node = r.node
  state : ∀ r, (g r).state = .outstanding ↔ r.state = .outstanding
  same : ∀ r, r.state = .outstanding → g r = r

variable {q : WriteRecord → Bool} {why write fetch : Reason} {g m : WriteRecord → WriteRecord} {f k : State → State}

theorem WritesEnd.endsOf (hk : WritesEnd p l q why g m k) (r : WriteRecord) : (g r).endsOf p = r.endsOf p := by
  simp only [WriteRecord.endsOf, hk.node, hk.state]

theorem WritesEnd.outstandingOf (hk : WritesEnd p l q why g m k) (u : State) (n : Node) :
    ((k u).writeQueues.get l).outstandingOf n = (u.writeQueues.get l).outstandingOf n := by
  rw [hk.queues, get_upd_self, WriteQueue.outstandingOf, WriteQueue.outstandingOf]
  dsimp only
  generalize (u.writeQueues.get l).order = order
  induction order with
  | nil => rfl
  | cons r rs ih =>
    by_cases hq : q r = true
    · have hstate := hk.apart r hq
      simpa [hq, hstate] using ih
    · by_cases hstate : r.state = .outstanding
      · have hsame := hk.same r hstate
        simp only [List.filter_cons, hq, Bool.not_false, if_true, List.map_cons, ih, hsame]
      · have hstate' : (g r).state ≠ .outstanding := fun h => hstate ((hk.state r).1 h)
        simpa [hq, hstate, hstate'] using ih

theorem filter_or_perm {α : Type} {a b : α → Bool} (hab : ∀ x, b x = true → a x = false) (xs : List α) :
    (xs.filter a ++ xs.filter b).Perm (xs.filter fun x => a x || b x) := by
  have hsplit := List.filter_append_perm a (xs.filter fun x => a x || b x)
  rw [List.filter_filter, List.filter_filter] at hsplit
  have ha : (fun x => a x && (a x || b x)) = a := funext fun x => by cases a x <;> simp
  have hb : (fun x => !a x && (a x || b x)) = b := funext fun x => by
    cases hx : b x
    · cases a x <;> rfl
    · simp [hab x hx]
  rwa [ha, hb] at hsplit

theorem WritesEnd.disjoint (hk : WritesEnd p l q why g m k) (r : WriteRecord) (hq : q r = true) : r.endsOf p = false := by
  simp [WriteRecord.endsOf, hk.apart r hq]

/-- R80, R104: both owners have seen to their work, in either order. -/
structure Ended (p : Node → Bool) (l : Link) (q : WriteRecord → Bool) (why write fetch : Reason) (g m : WriteRecord → WriteRecord)
    (f : State → State) (s t : State) : Prop where
  hands : ∃ (requestsFirst : Bool) (ws : List WriteRecord),
    ws.Perm ((s.writeQueues.get l).order.filter fun r => r.endsOf p || q r)
    ∧ s.Hands p ws (fun h => if requestsFirst then
        s.imposed l p write fetch h ++ ((s.writeQueues.get l).order.filter q).filterMap (WriteRecord.failing h why)
      else ((s.writeQueues.get l).order.filter q).filterMap (WriteRecord.failing h why) ++ s.imposed l p write fetch h)
      (s.imposedFetches l p fetch) t
  queues : t.writeQueues = upd s.writeQueues l fun qu =>
    { qu with order := (qu.order.filter fun r => !(r.endsOf p || q r)).map g, reserved := qu.reserved.map m }
  arbiters : ∃ u : State, u.arbiters = s.arbiters
    ∧ (∀ n, (u.writeQueues.get l).outstandingOf n = (s.writeQueues.get l).outstandingOf n) ∧ t.arbiters = (f u).arbiters

theorem ended_of_requests_first (hf : ArbiterEnds p l write fetch f s) (hk : WritesEnd p l q why g m k) (hm : ∀ n, s.Matched l n)
    (hp : ∀ r ∈ (s.writeQueues.get l).order, q r = true → p r.node = true) : Ended p l q why write fetch g m f s (k (f s)) := by
  have hfirst := hf s rfl hm
  have horder : ((f s).writeQueues.get l).order = (s.writeQueues.get l).order.filter fun r => !r.endsOf p := by
    rw [hfirst.queues, get_upd_self]
    exact State.tagWrites_leave hm
  have hleft : ((f s).writeQueues.get l).order.filter q = (s.writeQueues.get l).order.filter q := by
    rw [horder, List.filter_filter]
    refine List.filter_congr fun r _ => ?_
    cases hq : q r
    · rfl
    · simp [hk.disjoint r hq]
  have hsecond := hk.hands (f s) fun r hr => hp r (List.mem_of_mem_filter (horder ▸ hr))
  rw [hleft] at hsecond
  refine ⟨⟨true, _, ?_, (hfirst.toHands.trans hsecond).congr rfl (fun h => rfl) fun h => (List.append_nil _).symm⟩, ?_, ⟨s, rfl, fun _ => rfl, hk.arbiters _⟩⟩
  · exact ((State.tagWrites_perm hm).append_right _).trans (filter_or_perm hk.disjoint _)
  · rw [hk.queues, hfirst.queues, upd_upd]
    refine upd_congr _ _ ?_
    dsimp only
    rw [State.tagWrites_leave hm, List.filter_filter]
    simp only [Bool.not_or, Bool.and_comm]

theorem ended_of_writes_first (hf : ArbiterEnds p l write fetch f s) (hk : WritesEnd p l q why g m k) (hm : ∀ n, s.Matched l n)
    (hp : ∀ r ∈ (s.writeQueues.get l).order, q r = true → p r.node = true) : Ended p l q why write fetch g m f s (f (k s)) := by
  have hfirst := hk.hands s hp
  have hout := hk.outstandingOf s
  have hm' (n : Node) : (k s).Matched l n := (hm n).of_same (State.request_of_arbiters (hk.arbiters s)) (hout n)
  have hsecond := hf (k s) (hk.arbiters s) hm'
  have horder : ((k s).writeQueues.get l).order = ((s.writeQueues.get l).order.filter fun r => !q r).map g := by
    rw [hk.queues, get_upd_self]
  have hwrites : ((List.finRange 8).flatMap ((k s).tagWrites l p)).Perm ((s.writeQueues.get l).order.filter (WriteRecord.endsOf p)) := by
    refine List.Perm.trans (List.Perm.of_eq ?_) (State.tagWrites_perm hm)
    refine List.flatMap_congr fun tag _ => ?_
    exact (State.tag_congr (p := p) (State.request_of_arbiters (hk.arbiters s) tag) (fun r _ _ _ => hout r.node) write fetch).1
  have hsame (h : Host) := State.imposed_congr (p := p) (State.request_of_arbiters (hk.arbiters s)) (by rw [hk.arbiters]) hout write fetch h
  refine ⟨⟨false, _, ?_, (hfirst.trans hsecond.toHands).congr rfl (fun h => ?_) fun h => (hsame h).2.symm⟩, ?_, ⟨k s, hk.arbiters s, hout, rfl⟩⟩
  · exact (hwrites.append_left _).trans (List.perm_append_comm.trans (filter_or_perm hk.disjoint _))
  · exact congrArg (_ ++ ·) (hsame h).1.symm
  · have hleave := State.tagWrites_leave (p := p) hm'
    rw [hsecond.queues, upd_congr (k s).writeQueues l (g := fun qu => { qu with order := qu.order.filter fun r => !r.endsOf p })
      (by rw [hleave]), hk.queues, upd_upd]
    refine upd_congr _ _ ?_
    dsimp only
    rw [List.filter_map, List.filter_filter]
    have hrest : (fun r : WriteRecord => (((fun r => !r.endsOf p) ∘ g) r && !q r)) = fun r => !(r.endsOf p || q r) := funext fun r => by
      simp only [Function.comp_apply, hk.endsOf, Bool.not_or]
    rw [hrest]

/-- Before the owners, nothing has happened to what they deal with. -/
theorem Ended.of_before {v : State} (h : Ended p l q why write fetch g m f v t)
    (hhands : State.Hands p [] (fun _ => []) (fun _ => []) s v) (harbiters : v.arbiters = s.arbiters) (hwrites : v.writeQueues = s.writeQueues) :
    Ended p l q why write fetch g m f s t := by
  obtain ⟨⟨b, ws, hperm, hrest⟩, hqueues, hafter⟩ := h
  have hsame (h : Host) := State.imposed_congr (l := l) (p := p) (t := v) (s := s) (State.request_of_arbiters harbiters) (by rw [harbiters]) (fun n => by rw [hwrites]) write fetch h
  rw [hwrites] at hperm hrest hqueues hafter
  rw [harbiters] at hafter
  refine ⟨⟨b, ws, hperm, (hhands.trans hrest).congr rfl (fun h => ?_) fun h => (hsame h).2.symm⟩, hqueues, hafter⟩
  rw [(hsame h).1]
  rfl

theorem eitherOrder_ended (b : Bool) (hf : ArbiterEnds p l write fetch f s) (hk : WritesEnd p l q why g m k) (hm : ∀ n, s.Matched l n)
    (hp : ∀ r ∈ (s.writeQueues.get l).order, q r = true → p r.node = true) : Ended p l q why write fetch g m f s (eitherOrder b f k s) := by
  obtain ⟨c, h | h⟩ := eitherOrder_cases b f k s <;> rw [h]
  · exact (ended_of_requests_first (s := { s with choices := c }) hf hk (fun n => (hm n).of_same (fun _ => rfl) rfl) hp).of_before
      (s := s) (v := { s with choices := c }) (.of_same rfl rfl rfl (fun _ => rfl) rfl) rfl rfl
  · exact (ended_of_writes_first (s := { s with choices := c }) hf hk (fun n => (hm n).of_same (fun _ => rfl) rfl) hp).of_before
      (s := s) (v := { s with choices := c }) (.of_same rfl rfl rfl (fun _ => rfl) rfl) rfl rfl

end

end Sys2Proof.Machine

/-!
# What is left of the entries, and the arbiter's and the write queue's parts (R25, R50, R57, R59, R123, R124)
-/

namespace Sys2Proof.Machine

set_option Elab.async false

section
variable {p : Node → Bool} {ws : List WriteRecord} {s t : State} {l : Link}

/-! ## Entries that are suspended -/

theorem Entry.suspend_worn (e : Entry) : e.Worn 0 e.suspend := by
  refine .of_same e e.suspend ?_
  unfold Entry.suspend
  split <;> rfl

theorem forEntries_suspendEntry_worn {q : Entry → Bool} (hq : ∀ e, q e = true → p e.node = true) (s : State) :
    s.Worn p [] (forEntries q suspendEntry s) where
  entries i := by
    rw [forEntries_suspendEntry_entry]
    cases s.entry i with
    | none => exact .none
    | some e =>
      refine .some ?_
      dsimp only
      split
      · next hqe =>
        rw [Entry.WornIf, if_pos (hq e hqe)]
        exact e.suspend_worn
      · exact .refl e
  generation i := by rw [(forEntries_suspendEntry q s).slots]
  polls l := by
    rw [(forEntries_suspendEntry q s).polls,
      foldl_filter_slots (fun i => (s.entry i).any fun e => q e && decide (e.state ≠ .suspended ∧ nodeLink e.node = l)), List.filter_filter]
    refine List.filter_congr fun item _ => ?_
    cases he : s.entry item.slot with
    | none => simp
    | some e =>
      by_cases hp : p e.node = true
      · simp [State.outside, he, hp]
      · have hqe : q e = false := by
          rw [← Bool.not_eq_true]
          exact fun h => hp (hq e h)
        simp [hqe]

theorem forEntries_suspendEntry_tells (q : Entry → Bool) (s : State) :
    State.Tells [] (fun _ => []) (fun _ => []) s (forEntries q suspendEntry s) := by
  have haside := forEntries_suspendEntry_aside q s
  refine .of_same (Vector.ext fun k hk => ?_) (haside.read (g := State.writeQueues) fun _ _ _ _ => rfl) haside.timeBase
  have hhost := (forEntries_suspendEntry q s).hosts ⟨k, hk⟩
  rw [foldl_id] at hhost
  simpa [Vector.get_eq_getElem] using hhost

theorem forEntries_suspendEntry_hands {q : Entry → Bool} (hq : ∀ e, q e = true → p e.node = true) (s : State) :
    s.Hands p [] (fun _ => []) (fun _ => []) (forEntries q suspendEntry s) :=
  ⟨forEntries_suspendEntry_tells q s, forEntries_suspendEntry_worn hq s⟩

/-! ## What is left of them -/

/-- R23, R25: an entry whose node has gone, after `k` failed writes. -/
abbrev Entry.left (k : Nat) (e : Entry) : Entry :=
  { e with state := .suspended, phase := .idle, repoll := false, epoch := e.epoch + BitVec.ofNat 16 k }

/-- A SUSPENDED entry without a poll in flight is IDLE, and not marked. -/
theorem State.PollsFit.idle_of_suspended {M : Node → Prop} (h : s.PollsFit) (hmarks : s.MarksFit M) {i : SlotIx} {e : Entry}
    (he : s.entry i = some e) (hstate : e.state = .suspended) (hno : ¬ s.HasPoll i e) : e.phase = .idle ∧ e.repoll = false := by
  refine ⟨?_, ?_⟩
  · cases hphase : e.phase with
    | idle => rfl
    | queued =>
      obtain ⟨item, hitem, rfl⟩ := h.queued i e he hphase
      obtain ⟨x, hx, -, hx'⟩ := h.entries.items _ item hitem
      obtain rfl : e = x := by simpa [he] using hx
      exact absurd hstate hx'
    | inFlight => exact absurd (h.inFlight i e he hphase) hno
  · rw [← Bool.not_eq_true]
    exact fun hmark => (hmarks i e he hmark).1 hstate

/-- The entries of the nodes `p` are left, those of other nodes are as before. -/
theorem State.Worn.slots (h : s.Worn p ws t)
    (hleft : ∀ i, ∀ e, t.entry i = some e → p e.node = true → e.state = .suspended ∧ e.phase = .idle ∧ e.repoll = false) (i : SlotIx) :
    t.slots.get i = { s.slots.get i with
      entry := (s.entry i).map fun e => if p e.node then e.left (ws.countP fun r => r.reaches e) else e } := by
  have hentry : t.entry i = (s.entry i).map fun e => if p e.node then e.left (ws.countP fun r => r.reaches e) else e := by
    have hrel := h.entries i
    have hleft := hleft i
    generalize s.entry i = x, t.entry i = y at hrel hleft
    cases hrel with
    | none => rfl
    | @some e e' hworn =>
      rw [Option.map_some]
      have hnode := hworn.node
      unfold Entry.WornIf at hworn
      split at hworn
      · next hp =>
        rw [if_pos hp]
        obtain ⟨hstate, hphase, hmark⟩ := hleft e' rfl (hnode ▸ hp)
        rw [Entry.Worn, hstate, hphase, hmark] at hworn
        rw [hworn]
      · next hp => rw [if_neg hp, hworn]
  calc t.slots.get i = { generation := (t.slots.get i).generation, entry := t.entry i } := rfl
    _ = _ := by rw [h.generation, hentry]

/-- No poll of theirs is queued, and the others keep their order. -/
theorem State.Worn.pollQueue (h : s.Worn p ws t) (hitems : t.ItemsFit)
    (hleft : ∀ i, ∀ e, t.entry i = some e → p e.node = true → e.state = .suspended) (l : Link) :
    t.pollQueues.get l = (s.pollQueues.get l).filter (s.outside p) := by
  rw [← h.polls, ← h.outside]
  refine (List.filter_eq_self.2 fun item hitem => ?_).symm
  obtain ⟨e, he, -, hstate⟩ := hitems.items l item hitem
  have he : t.entry item.slot = some e := he
  have hp : ¬ p e.node = true := fun hp => hstate (hleft _ e he hp)
  simp [State.outside, he, hp]

/-- Where all nodes `p` are on link `l`, the other link's queue is as before. -/
theorem State.Worn.pollQueue_other (h : s.Worn p ws t) (hitems : t.ItemsFit) (hitems' : s.ItemsFit)
    (hleft : ∀ i, ∀ e, t.entry i = some e → p e.node = true → e.state = .suspended) (hp : ∀ n, p n = true → nodeLink n = l) {m : Link}
    (hm : m ≠ l) : t.pollQueues.get m = s.pollQueues.get m := by
  rw [h.pollQueue hitems hleft]
  refine List.filter_eq_self.2 fun item hitem => ?_
  obtain ⟨e, he, hlink, -⟩ := hitems'.items m item hitem
  have he : s.entry item.slot = some e := he
  have hno : ¬ p e.node = true := fun h => hm (hlink.symm.trans (hp _ h))
  simp [State.outside, he, hno]

/-! ## The write queue's part -/

/-- A reservation lapses, if the node is meant. -/
abbrev WriteRecord.lapsing (p : WriteRecord → Bool) (why : Reason) (r : WriteRecord) : WriteRecord :=
  if p r && r.lapse.isNone then { r with lapse := some why } else r

theorem lapseReservations_writeQueues (l : Link) (q : WriteRecord → Bool) (why : Reason) (s : State) :
    (lapseReservations l q why s).writeQueues = upd s.writeQueues l fun qu => { qu with reserved := qu.reserved.map (WriteRecord.lapsing q why) } := rfl

theorem lapseReservations_hands (l : Link) (q : WriteRecord → Bool) (why : Reason) (s : State) :
    s.Hands p [] (fun _ => []) (fun _ => []) (lapseReservations l q why s) := by
  exact .of_same rfl rfl rfl (fun h => coveredCount_modWrites h rfl) rfl

/-- The records of one node in one state, with which the write queue's part deals at once. -/
abbrev WriteRecord.queuedOf (n : Node) (r : WriteRecord) : Bool := decide (r.node = n ∧ r.state = .queued)

/-- R59: they fail, but not at a restart. -/
abbrev WriteRecord.failsFor (n : Node) (why : Reason) (r : WriteRecord) : Bool := r.queuedOf n && decide (why ≠ .nodeRestarted)

theorem WriteRecord.failsFor_eq {n : Node} {why : Reason} (hwhy : why ≠ .nodeRestarted) :
    WriteRecord.failsFor n why = WriteRecord.queuedOf n := by
  funext r
  simp [WriteRecord.failsFor, hwhy]

/-- R57: they are HELD. -/
abbrev WriteRecord.holding (n : Node) (r : WriteRecord) : WriteRecord :=
  if r.node = n ∧ r.state = .queued then { r with state := .held } else r

theorem holdWrites_hands (n : Node) (s : State) : s.Hands p [] (fun _ => []) (fun _ => []) (holdWrites n s) := by
  refine .of_same rfl rfl rfl (fun h => coveredCount_modWrites h ?_) rfl
  rw [List.countP_map]
  refine List.countP_congr fun r _ => ?_
  rw [Function.comp_apply]
  split <;> rfl

theorem failNodeWrites_ends {n : Node} {why : Reason} {st : WriteState} (hwhy : why ≠ .ok) (s : State)
    (hp : ∀ r ∈ (s.writeQueues.get (nodeLink n)).order, decide (r.node = n ∧ r.state = st) = true → p r.node = true) :
    s.Ends p (nodeLink n) ((s.writeQueues.get (nodeLink n)).order.filter fun r => decide (r.node = n ∧ r.state = st))
      (fun h => ((s.writeQueues.get (nodeLink n)).order.filter fun r => decide (r.node = n ∧ r.state = st)).filterMap
        (WriteRecord.failing h why)) (fun _ => []) (failNodeWrites n st why s) :=
  failWrites_ends hwhy hp

/-- R50, R57, R59. -/
theorem leaveNodeWrites_end {n : Node} {why : Reason} (hwhy : why ≠ .ok) : WritesEnd p (nodeLink n) (WriteRecord.failsFor n why) why
    (WriteRecord.holding n) (WriteRecord.lapsing (fun r => decide (r.node = n)) why) (leaveNodeWrites n why) where
  hands u hp := by
    have hlapse (v : State) := lapseReservations_hands (p := p) (nodeLink n) (fun r => decide (r.node = n)) why v
    unfold leaveNodeWrites
    by_cases hrestarted : why = .nodeRestarted
    · have hnone : (u.writeQueues.get (nodeLink n)).order.filter (WriteRecord.failsFor n why) = [] := by simp [WriteRecord.failsFor, hrestarted]
      rw [if_pos hrestarted, hnone]
      exact (holdWrites_hands n u).trans (hlapse _)
    · rw [WriteRecord.failsFor_eq hrestarted] at hp ⊢
      rw [if_neg hrestarted]
      exact ((failNodeWrites_ends hwhy u hp).toHands.trans (hlapse _)).congr (List.append_nil _).symm (fun h => (List.append_nil _).symm)
        fun h => rfl
  queues u := by
    unfold leaveNodeWrites
    by_cases hrestarted : why = .nodeRestarted
    · rw [if_pos hrestarted, lapseReservations_writeQueues, holdWrites, State.modWrites_writeQueues, upd_upd]
      refine upd_congr _ _ ?_
      simp [WriteRecord.failsFor, hrestarted]
    · rw [if_neg hrestarted, lapseReservations_writeQueues, failNodeWrites, failWrites_writeQueues, upd_upd]
      refine upd_congr _ _ ?_
      dsimp only
      rw [WriteRecord.failsFor_eq hrestarted]
      congr 1
      refine ((List.map_congr_left fun r hr => if_neg fun h => ?_).trans (List.map_id _)).symm
      simpa [WriteRecord.queuedOf, h] using List.of_mem_filter hr
  arbiters u := leaveNodeWrites_arbiters n why u
  apart r hq := by
    simp only [WriteRecord.failsFor, WriteRecord.queuedOf, Bool.and_eq_true, decide_eq_true_eq] at hq
    simp [hq.1.2]
  node r := by unfold WriteRecord.holding; split <;> rfl
  state r := by
    unfold WriteRecord.holding
    split
    · next h => simp [h.2]
    · rfl
  same r hr := if_neg fun h => by simp [hr] at h

/-! ## The arbiter's part -/

theorem endRequests_fetches (l : Link) (ends : Request → Bool) (why : Request → Reason) (s : State) (m : Link) :
    ((endRequests l ends why s).arbiters.get m).fetches = (s.arbiters.get m).fetches := by
  obtain ⟨line, h, -⟩ := endRequests_arbiters l ends why s
  rw [h, get_upd]
  split
  · next hm => rw [hm]; rfl
  · rfl

/-- R97, R123, R124, R129: requests in flight and pending fetches of the nodes `p`. -/
theorem endBoth_ends {write fetch : Reason} {ends : Request → Bool} {why : Request → Reason} {q : FetchItem → Bool}
    (hrule : EndRule write fetch why) {u : State} (hm : ∀ n, u.Matched l n)
    (hends : ∀ g, ∀ r ∈ u.request l g, r.isIdent = false → ends r = p r.node)
    (hq : ∀ f ∈ (u.arbiters.get l).fetches, q f = p f.node) :
    u.Ends p l ((List.finRange 8).flatMap (u.tagWrites l p)) (u.imposed l p write fetch) (u.imposedFetches l p fetch)
      (endFetches l q fetch (endRequests l ends why u)) := by
  have hrequests := endRequests_ends hrule (State.ready_of_matched hm hends)
  have hfetches := endFetches_ends (p := p) (l := l) q fetch (endRequests l ends why u)
  rw [endRequests_fetches, List.filter_congr hq] at hfetches
  exact (hrequests.trans hfetches).congr (List.append_nil _).symm (fun h => State.imposed_eq ..) fun h => State.imposedFetches_eq ..

end

/-! ## A node that leaves PRESENT -/

/-- R80: with which reason a fetch of the node ends. -/
abbrev Reason.forFetch (why : Reason) : Reason := if why = .quarantined then .nodeLost else why

theorem leavingReason_rule {why : Reason} (hwhy : why = .nodeRestarted ∨ why = .nodeLost ∨ why = .quarantined) :
    EndRule why why.forFetch (leavingReason why) where
  write r hr := by simp [leavingReason, hr]
  fetch r hr := by simp [leavingReason, hr, Reason.forFetch]
  imposedWrite := by rcases hwhy with rfl | rfl | rfl <;> simp [Reason.imposed]
  imposedFetch := by rcases hwhy with rfl | rfl | rfl <;> simp [Reason.imposed, Reason.forFetch]

theorem endNodeRequests_end {n : Node} {why : Reason} (hwhy : why = .nodeRestarted ∨ why = .nodeLost ∨ why = .quarantined) (s : State) :
    ArbiterEnds (fun m => decide (m = n)) (nodeLink n) why why.forFetch (endNodeRequests n why) s := fun u _ hm =>
  endBoth_ends (leavingReason_rule hwhy) hm (fun g r _ hident => by simp [hident]) fun f _ => rfl

end Sys2Proof.Machine

/-!
# LeavingPresentEndsNodeWork (R80)
-/

namespace Sys2Proof.Machine

set_option Elab.async false

/-- R80: the owners' parts, with the presence set already. -/
def leaveEnded (n : Node) (p : Presence) (cause : Option IdentCause) (why : Reason) (s : State) : State :=
  let v := s.modNode n fun r => { r with presence := p, cause := cause, timeouts := 0 }
  eitherOrder (v.leavingBoth n why) (endNodeRequests n why) (leaveNodeWrites n why) v

theorem leavePresent_eq (n : Node) (p : Presence) (cause : Option IdentCause) (why : Reason) (s : State) :
    leavePresent n p cause why s = suspendNode n (leaveEnded n p cause why s) := rfl

/-- The reasons with which a PRESENT node leaves. -/
abbrev Reason.leaves (why : Reason) : Prop := why = .nodeRestarted ∨ why = .nodeLost ∨ why = .quarantined

theorem Reason.leaves.ne_ok {why : Reason} (h : why.leaves) : why ≠ .ok := by
  rintro rfl
  simp [Reason.leaves] at h

/-- Which writes end when a node leaves. -/
theorem WriteRecord.endsOf_or_failsFor (n : Node) (why : Reason) (r : WriteRecord) : (r.endsOf (fun m => decide (m = n)) || r.failsFor n why)
    = decide (r.node = n ∧ (r.state = .outstanding ∨ (r.state = .queued ∧ why ≠ .nodeRestarted))) := by
  by_cases hnode : r.node = n <;> simp [WriteRecord.endsOf, WriteRecord.failsFor, WriteRecord.queuedOf, hnode]

section
variable {n : Node} {p : Presence} {cause : Option IdentCause} {why : Reason} {s : State}

theorem leaveEnded_ended (hwhy : why.leaves) (hout : s.outstandingOk) :
    Ended (fun m => decide (m = n)) (nodeLink n) (WriteRecord.failsFor n why) why why why.forFetch (WriteRecord.holding n)
      (WriteRecord.lapsing (fun r => decide (r.node = n)) why) (endNodeRequests n why) s (leaveEnded n p cause why s) := by
  let v := s.modNode n fun r => { r with presence := p, cause := cause, timeouts := 0 }
  have hm (m : Node) : v.Matched (nodeLink n) m := (State.matched_of_outstandingOk hout (nodeLink n) m).of_same (fun _ => rfl) rfl
  have hended := eitherOrder_ended (s := v) (v.leavingBoth n why) (endNodeRequests_end (n := n) hwhy v)
    (leaveNodeWrites_end (p := fun m => decide (m = n)) hwhy.ne_ok) hm fun r _ hq => by
      simp only [WriteRecord.failsFor, WriteRecord.queuedOf, Bool.and_eq_true, decide_eq_true_eq] at hq ⊢
      exact hq.1.1
  exact hended.of_before (.of_same rfl rfl rfl (fun _ => rfl) rfl) rfl rfl

/-! ## Polls and marks -/

theorem endNodeRequests_pollActs (n : Node) (hwhy : why.leaves) (u : State) :
    PollActs ⟨false, false, false⟩ u (endNodeRequests n why u) := Acts.pollActs (net := false) (endNodeRequests_acts n hwhy.ne_ok u)

theorem leaveNodeWrites_pollActs (n : Node) (why : Reason) (u : State) : PollActs ⟨false, false, false⟩ u (leaveNodeWrites n why u) := by
  have hlapse (v : State) : PollActs ⟨false, false, false⟩ v (lapseReservations (nodeLink n) (fun r => decide (r.node = n)) why v) :=
    PollActs.of_same rfl rfl rfl
  have hheld : PollActs ⟨false, false, false⟩ u (holdWrites n u) := PollActs.of_same rfl rfl rfl
  have hfailed : PollActs ⟨false, false, false⟩ u (failNodeWrites n .queued why u) :=
    Acts.pollActs (net := false) (failNodeWrites_acts n why (by simp) u)
  unfold leaveNodeWrites
  split
  · exact hheld.trans (hlapse (holdWrites n u))
  · exact hfailed.trans (hlapse (failNodeWrites n .queued why u))

theorem eitherOrder_pollActs {port : Scope} (b : Bool) {f k : State → State} (hf : ∀ u, PollActs port u (f u)) (hk : ∀ u, PollActs port u (k u))
    (u : State) : PollActs port u (eitherOrder b f k u) := by
  obtain ⟨c, h | h⟩ := eitherOrder_cases b f k u <;> rw [h]
  · have hmoved : PollActs port u { u with choices := c } := PollActs.of_same rfl rfl rfl
    exact (hmoved.trans (hf { u with choices := c })).trans (hk (f { u with choices := c }))
  · have hmoved : PollActs port u { u with choices := c } := PollActs.of_same rfl rfl rfl
    exact (hmoved.trans (hk { u with choices := c })).trans (hf (k { u with choices := c }))

theorem forEntries_suspendEntry_pollActs {port : Scope} (q : Entry → Bool) (u : State) : PollActs port u (forEntries q suspendEntry u) :=
  Acts.pollActs (net := false) (forEntries_chain q suspendEntry_acts u)

theorem leavePresent_pollActs (hwhy : why.leaves) : PollActs ⟨false, false, false⟩ s (leavePresent n p cause why s) := by
  let v := s.modNode n fun r => { r with presence := p, cause := cause, timeouts := 0 }
  have hmoved : PollActs ⟨false, false, false⟩ s v := PollActs.of_same rfl rfl rfl
  have hended : PollActs ⟨false, false, false⟩ v (leaveEnded n p cause why s) :=
    eitherOrder_pollActs (v.leavingBoth n why) (endNodeRequests_pollActs n hwhy) (leaveNodeWrites_pollActs n why) v
  exact (hmoved.trans hended).trans (forEntries_suspendEntry_pollActs (fun e => decide (e.node = n)) (leaveEnded n p cause why s))

theorem endNodeRequests_arbiters (n : Node) (why : Reason) (u : State) :
    ∃ line, (endNodeRequests n why u).arbiters = upd u.arbiters (nodeLink n) (fun a =>
        { a.endTags (fun r => decide (r.node = n) && !r.isIdent) (List.finRange 8) with
          onLine := line, fetches := a.fetches.filter fun f => f.node ≠ n })
      ∧ (line = (u.arbiters.get (nodeLink n)).onLine
        ∨ ∃ g r rest, (u.arbiters.get (nodeLink n)).onLine = none ∧ (u.arbiters.get (nodeLink n)).txOrder = g :: rest
          ∧ u.request (nodeLink n) g = some r ∧ r.node = n ∧ line = some (u.copyBytes (nodeLink n) g r)) := by
  obtain ⟨line, h, hline⟩ := endRequests_arbiters (nodeLink n) (fun r => decide (r.node = n) && !r.isIdent) (leavingReason why) u
  refine ⟨line, ?_, hline.imp_right ?_⟩
  · rw [endNodeRequests, endFetches_arbiters, h, upd_upd]
    refine upd_congr _ _ ?_
    simp [Arbiter.endTags]
  · rintro ⟨g, r, rest, hnone, htx, hr, hends, hcopy⟩
    exact ⟨g, r, rest, hnone, htx, hr, by simpa using (Bool.and_eq_true_iff.1 hends).1, hcopy⟩

theorem copyBytes_congr {u : State} {l : Link} (harbiters : u.arbiters = s.arbiters)
    (hout : ∀ m, (u.writeQueues.get l).outstandingOf m = (s.writeQueues.get l).outstandingOf m) (g : Tag) (r : Request) :
    u.copyBytes l g r = s.copyBytes l g r := by
  simp only [State.copyBytes, State.requestData, harbiters, WriteQueue.outstanding_eq, hout]

/-- R97, R123: the node's requests and fetches are gone from its link's arbiter. -/
theorem leavePresent_arbiters (hwhy : why.leaves) (hout : s.outstandingOk) :
    ∃ line, (leavePresent n p cause why s).arbiters = upd s.arbiters (nodeLink n) (fun a =>
        { a.endTags (fun r => decide (r.node = n) && !r.isIdent) (List.finRange 8) with
          onLine := line, fetches := a.fetches.filter fun f => f.node ≠ n })
      ∧ (line = (s.arbiters.get (nodeLink n)).onLine
        ∨ ∃ g r rest, (s.arbiters.get (nodeLink n)).onLine = none ∧ (s.arbiters.get (nodeLink n)).txOrder = g :: rest
          ∧ s.request (nodeLink n) g = some r ∧ r.node = n ∧ line = some (s.copyBytes (nodeLink n) g r)) := by
  have haside := forEntries_suspendEntry_aside (fun e => decide (e.node = n)) (leaveEnded n p cause why s)
  obtain ⟨u, harbiters, hsame, hafter⟩ := (leaveEnded_ended (p := p) (cause := cause) (n := n) hwhy hout).arbiters
  obtain ⟨line, h, hline⟩ := endNodeRequests_arbiters n why u
  have hrequest (g : Tag) : u.request (nodeLink n) g = s.request (nodeLink n) g := State.request_of_arbiters harbiters g
  refine ⟨line, ?_, ?_⟩
  · rw [leavePresent_eq]
    exact (haside.read (g := State.arbiters) fun _ _ _ _ => rfl).trans (hafter.trans (by rw [h, harbiters]))
  · simpa only [harbiters, hrequest, copyBytes_congr harbiters hsame] using hline

/-- No IDENT of a PRESENT node is in flight (R79). -/
theorem not_isIdent_of_present (hs : s.trafficOk) (hn : s.presence n = .present) {l : Link} {g : Tag} {r : Request}
    (hr : s.request l g = some r) (hnode : r.node = n) : r.isIdent = false := by
  have hpresence := (hs.2.1 l g r hr).2
  rw [hnode, hn] at hpresence
  by_contra hident
  simp [hident] at hpresence

theorem leavePresent_request (hwhy : why.leaves) (hs : s.trafficOk) (hout : s.outstandingOk) (hn : s.presence n = .present) (m : Link) (g : Tag) :
    (leavePresent n p cause why s).request m g = (s.request m g).bind fun r => if r.node = n then none else some r := by
  obtain ⟨line, h, -⟩ := leavePresent_arbiters (n := n) (p := p) (cause := cause) hwhy hout
  rw [State.request, h, get_upd]
  have hof (l : Link) (r : Request) (hr : s.request l g = some r) (hnode : r.node = n) : r.isIdent = false :=
    not_isIdent_of_present hs hn hr hnode
  split
  · next hm =>
    subst hm
    have hofl := hof (nodeLink n)
    rw [State.request] at hofl ⊢
    simp only [Arbiter.endTags_tags, List.mem_finRange, true_and]
    cases hr : ((s.arbiters.get (nodeLink n)).tags.get g).request with
    | none => simp [hr]
    | some r =>
      by_cases hnode : r.node = n
      · simp [hnode, hofl r hr hnode]
      · simp [hnode, hr]
  · next hm =>
    refine Eq.trans (b := s.request m g) rfl ?_
    cases hr : s.request m g with
    | none => rfl
    | some r =>
      have hnode : r.node ≠ n := fun h => hm (h ▸ (hs.2.1 m g r hr).1).symm
      simp [hnode]

/-! ## Entries -/

theorem leavePresent_hands (hwhy : why.leaves) (hout : s.outstandingOk) :
    ∃ (requestsFirst : Bool) (ws : List WriteRecord),
      ws.Perm ((s.writeQueues.get (nodeLink n)).order.filter fun r => r.endsOf (fun m => decide (m = n)) || r.failsFor n why)
      ∧ s.Hands (fun m => decide (m = n)) ws (fun h => if requestsFirst then
          s.imposed (nodeLink n) (fun m => decide (m = n)) why why.forFetch h
            ++ ((s.writeQueues.get (nodeLink n)).order.filter (WriteRecord.failsFor n why)).filterMap (WriteRecord.failing h why)
        else ((s.writeQueues.get (nodeLink n)).order.filter (WriteRecord.failsFor n why)).filterMap (WriteRecord.failing h why)
          ++ s.imposed (nodeLink n) (fun m => decide (m = n)) why why.forFetch h)
        (s.imposedFetches (nodeLink n) (fun m => decide (m = n)) why.forFetch) (leavePresent n p cause why s) := by
  obtain ⟨b, ws, hperm, hhands⟩ := (leaveEnded_ended (p := p) (cause := cause) (n := n) hwhy hout).hands
  have hsuspended := forEntries_suspendEntry_hands (p := fun m => decide (m = n)) (q := fun e => decide (e.node = n)) (fun _ => id)
    (leaveEnded n p cause why s)
  exact ⟨b, ws, hperm, (hhands.trans hsuspended).congr (List.append_nil _).symm (fun h => (List.append_nil _).symm)
    fun h => (List.append_nil _).symm⟩

/-- The node's entries have no polls left. -/
theorem leavePresent_left (hwhy : why.leaves) (hs : s.trafficOk) (hout : s.outstandingOk) (hpolls : s.pollsOk) (hn : s.presence n = .present)
    (i : SlotIx) (e : Entry) (he : (leavePresent n p cause why s).entry i = some e) (hnode : e.node = n) :
    e.state = .suspended ∧ e.phase = .idle ∧ e.repoll = false := by
  obtain ⟨hfit, hmarks⟩ := (State.pollsOk_iff hs).1 hpolls
  have hacts := leavePresent_pollActs (n := n) (p := p) (cause := cause) (s := s) hwhy
  have hfit' := hacts.keeps (fun _ _ => polls_pollAct) hfit
  have hmarks' := hacts.keeps (fun _ _ h => marks_pollAct h rfl) hmarks
  have hstate : e.state = .suspended := forEntries_suspendEntry_suspended (fun e => decide (e.node = n)) (leaveEnded n p cause why s) he
    fun x hx => by simp [hx, hnode]
  refine ⟨hstate, hfit'.idle_of_suspended hmarks' he hstate ?_⟩
  rintro ⟨g, r, hr, -, hrnode, -, -⟩
  have hr : (leavePresent n p cause why s).request (nodeLink e.node) g = some r := hr
  rw [leavePresent_request hwhy hs hout hn, Option.bind_eq_some_iff] at hr
  obtain ⟨x, -, hx⟩ := hr
  split at hx
  · cases hx
  · next hx' =>
    obtain rfl := Option.some.inj hx
    exact hx' (hrnode.trans hnode)

theorem leavePresent_slots (hwhy : why.leaves) (hs : s.trafficOk) (hout : s.outstandingOk) (hpolls : s.pollsOk) (hn : s.presence n = .present)
    (i : SlotIx) : (leavePresent n p cause why s).slots.get i = { s.slots.get i with
      entry := (s.entry i).map fun e => if e.node = n then e.left ((s.writeQueues.get (nodeLink n)).order.countP fun r =>
        r.reaches e && decide (r.state = .outstanding ∨ (r.state = .queued ∧ why ≠ .nodeRestarted))) else e } := by
  obtain ⟨b, ws, hperm, hhands⟩ := leavePresent_hands (n := n) (p := p) (cause := cause) hwhy hout
  rw [hhands.worn.slots (fun i e he hnode => leavePresent_left hwhy hs hout hpolls hn i e he (of_decide_eq_true hnode)) i]
  refine congrArg (fun e => ({ s.slots.get i with entry := e } : Slot)) (Option.map_congr fun e _ => ?_)
  by_cases hnode : e.node = n
  · rw [if_pos (decide_eq_true hnode), if_pos hnode, hperm.countP_eq, List.countP_filter]
    refine congrArg (fun k => e.left k) (List.countP_congr fun r _ => ?_)
    rw [WriteRecord.endsOf_or_failsFor]
    by_cases hr : r.node = n <;> simp [WriteRecord.reaches, hnode, hr]
  · rw [if_neg (by simpa using hnode), if_neg hnode]

theorem leavePresent_writeQueues (hwhy : why.leaves) (hout : s.outstandingOk) :
    (leavePresent n p cause why s).writeQueues = upd s.writeQueues (nodeLink n) fun qu => { qu with
      order := (qu.order.filter fun r => !(r.endsOf (fun m => decide (m = n)) || r.failsFor n why)).map (WriteRecord.holding n)
      reserved := qu.reserved.map (WriteRecord.lapsing (fun r => decide (r.node = n)) why) } := by
  have haside := forEntries_suspendEntry_aside (fun e => decide (e.node = n)) (leaveEnded n p cause why s)
  exact (haside.read (g := State.writeQueues) fun _ _ _ _ => rfl).trans (leaveEnded_ended (p := p) (cause := cause) hwhy hout).queues

theorem leavePresent_pollQueues (hwhy : why.leaves) (hs : s.trafficOk) (hout : s.outstandingOk) (hpolls : s.pollsOk)
    (hn : s.presence n = .present) : (leavePresent n p cause why s).pollQueues.get (nodeLink n)
        = (s.pollQueues.get (nodeLink n)).filter (s.outside fun m => decide (m = n))
      ∧ ∀ m, m ≠ nodeLink n → (leavePresent n p cause why s).pollQueues.get m = s.pollQueues.get m := by
  obtain ⟨b, ws, -, hhands⟩ := leavePresent_hands (n := n) (p := p) (cause := cause) hwhy hout
  have hfit := ((State.pollsOk_iff hs).1 hpolls).1
  have hfit' := (leavePresent_pollActs (n := n) (p := p) (cause := cause) hwhy).keeps (fun _ _ => polls_pollAct) hfit
  have hleft (i : SlotIx) (e : Entry) (he : (leavePresent n p cause why s).entry i = some e) (hnode : decide (e.node = n) = true) :
      e.state = .suspended := (leavePresent_left hwhy hs hout hpolls hn i e he (of_decide_eq_true hnode)).1
  exact ⟨hhands.worn.pollQueue hfit'.entries hleft _, fun m hm => hhands.worn.pollQueue_other hfit'.entries hfit.entries hleft
    (fun x hx => by rw [of_decide_eq_true hx]) hm⟩

end

/-- Settles O36: the owners' parts end the node's work in either order, and the suspension leaves its entries without polls. -/
theorem leavingPresentEndsNodeWork : Obligations.LeavingPresentEndsNodeWork := by
  intro n p cause why s hs hout hpolls hn hwhy
  dsimp only
  have hqueues := leavePresent_writeQueues (n := n) (p := p) (cause := cause) hwhy hout
  obtain ⟨hpollQueue, hpollOthers⟩ := leavePresent_pollQueues (n := n) (p := p) (cause := cause) hwhy hs hout hpolls hn
  obtain ⟨line, harbiters, hline⟩ := leavePresent_arbiters (n := n) (p := p) (cause := cause) hwhy hout
  obtain ⟨requestsFirst, ws, -, hhands⟩ := leavePresent_hands (n := n) (p := p) (cause := cause) hwhy hout
  have hqueued (h : Host) : ((s.writeQueues.get (nodeLink n)).order.filter (WriteRecord.failsFor n why)).filterMap (WriteRecord.failing h why)
      = if why = .nodeRestarted then [] else
        ((s.writeQueues.get (nodeLink n)).order.filter (WriteRecord.queuedOf n)).filterMap (WriteRecord.failing h why) := by
    by_cases hrestarted : why = .nodeRestarted
    · simp [WriteRecord.failsFor, hrestarted]
    · rw [WriteRecord.failsFor_eq hrestarted, if_neg hrestarted]
  have hread {α : Type} {g : State → α} (hH : IgnoresHosts g) (hS : IgnoresSlots g) (hP : IgnoresPolls g) (hW : IgnoresWrites g)
      (hA : IgnoresArbiters g) (hN : IgnoresNodes g) (hC : IgnoresChoices g) : g (leavePresent n p cause why s) = g s :=
    leavePresent_read hH hS hP hW hA hN hC ..
  refine ⟨leavePresent_nodes n p cause why s, ⟨requestsFirst, fun h => ?_⟩, leavePresent_request hwhy hs hout hn, fun m => ?_, fun m hm => ?_,
    ⟨line, ?_, fun g => ?_, hline⟩, leavePresent_slots hwhy hs hout hpolls hn, ?_, ?_, ?_, fun m hm => ⟨?_, hpollOthers m hm⟩, ?_, ?_, ?_⟩
  · rw [hhands.tells.hosts, hqueued]
  · rw [harbiters, get_upd]
    split
    · next hm => rw [hm]
    · next hm =>
      refine (List.filter_eq_self.2 fun f hf => ?_).symm
      have hnode : f.node ≠ n := fun h => hm (h ▸ (hs.2.2.2.1 m f hf).1).symm
      simp [hnode]
  · rw [harbiters, get_upd_ne _ _ hm]
  · rw [harbiters, get_upd_self]
    refine congrArg (fun tx : List Tag => ({ (s.arbiters.get (nodeLink n)).endTags (fun r => decide (r.node = n) && !r.isIdent)
      (List.finRange 8) with onLine := line, fetches := _, txOrder := tx } : Arbiter)) (List.filter_congr fun g _ => ?_)
    have hof (r : Request) (hr : s.request (nodeLink n) g = some r) (hnode : r.node = n) : r.isIdent = false :=
      not_isIdent_of_present hs hn hr hnode
    rw [State.request] at hof ⊢
    cases hr : ((s.arbiters.get (nodeLink n)).tags.get g).request with
    | none => simp
    | some r =>
      by_cases hnode : r.node = n
      · simp [hnode, hof r hr hnode]
      · simp [hnode]
  · rw [harbiters, get_upd_self]
    dsimp only
    rw [Arbiter.endTags_tags]
    split <;> rfl
  · rw [hpollQueue]
    refine List.filter_congr fun item _ => ?_
    simp [State.outside]
  · rw [hqueues, get_upd_self]
    refine congrArg (List.map _) (List.filter_congr fun r _ => ?_)
    rw [WriteRecord.endsOf_or_failsFor, decide_not]
  · rw [hqueues, get_upd_self]
    refine List.map_congr_left fun r _ => ?_
    simp [WriteRecord.lapsing]
  · rw [hqueues, get_upd_ne _ _ hm]
  · exact hread (g := State.claims) (fun _ _ _ => rfl) (fun _ _ _ => rfl) (fun _ _ _ => rfl) (fun _ _ _ => rfl) (fun _ _ _ => rfl)
      (fun _ _ _ => rfl) fun _ _ => rfl
  · exact hread (g := State.links) (fun _ _ _ => rfl) (fun _ _ _ => rfl) (fun _ _ _ => rfl) (fun _ _ _ => rfl) (fun _ _ _ => rfl)
      (fun _ _ _ => rfl) fun _ _ => rfl
  · exact hread (g := State.timeBase) (fun _ _ _ => rfl) (fun _ _ _ => rfl) (fun _ _ _ => rfl) (fun _ _ _ => rfl) (fun _ _ _ => rfl)
      (fun _ _ _ => rfl) fun _ _ => rfl

end Sys2Proof.Machine

/-!
# What a departure does before the owners act (R60, R97, R104, R105)
-/

namespace Sys2Proof.Machine

set_option Elab.async false

section
variable {s : State} {l : Link} {next : LinkState} {why : Reason}

/-! ## An event for all hosts -/

theorem broadcast_hosts (b : EventBody) (s : State) (h : Host) :
    (broadcast b s).hosts.get h = (s.hosts.get h).receive (low16 s.timeBase) b := by
  rw [broadcast, forHosts_eq]
  simp only [notify_hosts]
  have htime (g : Host) (u : State) : (notify g b u).timeBase = u.timeBase := rfl
  simp only [htime]
  have hcases : ∀ h : Host, h = 0 ∨ h = 1 ∨ h = 2 := by decide
  rcases hcases h with rfl | rfl | rfl <;> rfl

theorem broadcast_tells (k : EventKind) (subject reason : Byte) (value : Word16) (s : State) :
    State.Tells [] (fun _ => [plainly k subject reason value]) (fun _ => []) s (broadcast (eventOf k subject reason value) s) := by
  refine State.Tells.plain (f := fun _ hs => hs.receive (low16 s.timeBase) (eventOf k subject reason value)) (broadcast_hosts _ s)
    (broadcast_read (g := State.writeQueues) (fun _ _ _ => rfl) _ s) (broadcast_read (g := State.timeBase) (fun _ _ _ => rfl) _ s)
    (fun _ => plain_plainly _ _ _ _) fun h hs => ?_
  rw [HostState.handed_plainly]
  exact (HostState.receive_fetchBuffer (low16 s.timeBase) (eventOf k subject reason value) hs hs.fetchBuffer)

theorem broadcast_hands (p : Node → Bool) (k : EventKind) (subject reason : Byte) (value : Word16) (s : State) :
    s.Hands p [] (fun _ => [plainly k subject reason value]) (fun _ => []) (broadcast (eventOf k subject reason value) s) :=
  ⟨broadcast_tells .., .of_same (broadcast_read (g := State.slots) (fun _ _ _ => rfl) _ s)
    (broadcast_read (g := State.pollQueues) (fun _ _ _ => rfl) _ s)⟩

/-! ## LINK_DOWN -/

/-- R104, R105: what every host is told first. -/
def State.departNews (s : State) (l : Link) (next : LinkState) (why : Reason) : List (Option EventBody × Bool) :=
  if announces (s.linkState l) next then [plainly .linkDown (byteOf l.val) why.code ((s.linkState l).code.setWidth 16)] else []

theorem departTold_hands (p : Node → Bool) (l : Link) (next : LinkState) (why : Reason) (s : State) :
    s.Hands p [] (fun _ => s.departNews l next why) (fun _ => []) (departTold l next why s) := by
  let q := goQuiet l (s.modLink l fun k => k.depart next why s.timeBase)
  have hquiet : s.Hands p [] (fun _ => []) (fun _ => []) q := .of_same rfl rfl rfl (fun _ => rfl) rfl
  unfold departTold State.departNews
  dsimp only
  split
  · exact (hquiet.trans (broadcast_hands p .linkDown (byteOf l.val) why.code ((s.linkState l).code.setWidth 16) q)).congr rfl
      (fun _ => rfl) fun _ => rfl
  · exact hquiet

/-- What neither LINK_DOWN nor the nodes' records touch. -/
theorem departTold_read {α : Type} {g : State → α} (hH : IgnoresHosts g) (l : Link) (next : LinkState) (why : Reason) (s : State) :
    g (departTold l next why s) = g (goQuiet l (s.modLink l fun k => k.depart next why s.timeBase)) := by
  unfold departTold
  dsimp only
  split
  · exact broadcast_read hH ..
  · rfl

theorem departNodes_read {α : Type} {g : State → α} (hN : IgnoresNodes g) (l : Link) (s : State) : g (departNodes l s) = g s :=
  foldl_read _ (fun _ _ => hN _ _ _) _ _

/-- The state in which the poll queue is emptied. -/
def departMoved (l : Link) (next : LinkState) (why : Reason) (s : State) : State := departNodes l (departTold l next why s)

theorem departMoved_read {α : Type} {g : State → α} (hH : IgnoresHosts g) (hN : IgnoresNodes g) (l : Link) (next : LinkState) (why : Reason)
    (s : State) : g (departMoved l next why s) = g (goQuiet l (s.modLink l fun k => k.depart next why s.timeBase)) :=
  (departNodes_read hN l _).trans (departTold_read hH l next why s)

theorem departMoved_slots (l : Link) (next : LinkState) (why : Reason) (s : State) : (departMoved l next why s).slots = s.slots :=
  departMoved_read (g := State.slots) (fun _ _ _ => rfl) (fun _ _ _ => rfl) ..

theorem departMoved_pollQueues (l : Link) (next : LinkState) (why : Reason) (s : State) :
    (departMoved l next why s).pollQueues = s.pollQueues :=
  departMoved_read (g := State.pollQueues) (fun _ _ _ => rfl) (fun _ _ _ => rfl) ..

theorem departMoved_writeQueues (l : Link) (next : LinkState) (why : Reason) (s : State) :
    (departMoved l next why s).writeQueues = s.writeQueues :=
  departMoved_read (g := State.writeQueues) (fun _ _ _ => rfl) (fun _ _ _ => rfl) ..

theorem departMoved_arbiters (l : Link) (next : LinkState) (why : Reason) (s : State) :
    (departMoved l next why s).arbiters = upd s.arbiters l fun a => { a with txOrder := [], onLine := none } :=
  departMoved_read (g := State.arbiters) (fun _ _ _ => rfl) (fun _ _ _ => rfl) ..

theorem departMoved_request (l : Link) (next : LinkState) (why : Reason) (s : State) (m : Link) (g : Tag) :
    (departMoved l next why s).request m g = s.request m g := by
  rw [State.request, departMoved_arbiters, get_upd, State.request]
  split
  · next hm => rw [hm]
  · rfl

theorem departMoved_hands (p : Node → Bool) (l : Link) (next : LinkState) (why : Reason) (s : State) :
    s.Hands p [] (fun _ => s.departNews l next why) (fun _ => []) (departMoved l next why s) := by
  have hread {α : Type} {g : State → α} (hN : IgnoresNodes g) : g (departMoved l next why s) = g (departTold l next why s) :=
    departNodes_read hN l _
  have hwrites : (departMoved l next why s).writeQueues = (departTold l next why s).writeQueues := hread fun _ _ _ => rfl
  have hsame : (departTold l next why s).Hands p [] (fun _ => []) (fun _ => []) (departMoved l next why s) :=
    .of_same (hread fun _ _ _ => rfl) (hread fun _ _ _ => rfl) (hread fun _ _ _ => rfl) (fun h => by simp only [State.coveredCount, hwrites])
      (hread fun _ _ _ => rfl)
  exact ((departTold_hands p l next why s).trans hsame).congr rfl (fun _ => (List.append_nil _).symm) fun _ => rfl

/-! ## The poll queue -/

/-- R38: the entries lose their polls. -/
theorem emptyPollQueue_worn {p : Node → Bool} (hitems : s.ItemsFit) (hp : ∀ n, nodeLink n = l → p n = true) :
    s.Worn p [] (emptyPollQueue l s) where
  entries i := by
    rw [emptyPollQueue_entry]
    cases he : s.entry i with
    | none => exact .none
    | some e =>
      refine .some ?_
      dsimp only
      split
      · next hitem =>
        obtain ⟨item, hmem, rfl⟩ := hitem
        obtain ⟨x, hx, hlink, -⟩ := hitems.items l item hmem
        obtain rfl : e = x := by simpa [he] using hx
        rw [Entry.WornIf, if_pos (hp _ hlink)]
        exact .of_same e { e with phase := .idle } rfl
      · exact .refl e
  generation i := emptyPollQueue_generation l s i
  polls m := by
    rw [emptyPollQueue_pollQueues, get_upd]
    split
    · next hm =>
      subst hm
      refine (List.filter_eq_nil_iff.2 fun item hmem => ?_).symm
      obtain ⟨x, hx, hlink, -⟩ := hitems.items m item hmem
      have hx : s.entry item.slot = some x := hx
      simp [State.outside, hx, hp _ hlink]
    · rfl

theorem emptyPollQueue_hands {p : Node → Bool} (hitems : s.ItemsFit) (hp : ∀ n, nodeLink n = l → p n = true) :
    s.Hands p [] (fun _ => []) (fun _ => []) (emptyPollQueue l s) :=
  ⟨.of_same (emptyPollQueue_read (g := State.hosts) (fun _ _ _ => rfl) (fun _ _ _ => rfl) ..)
    (emptyPollQueue_read (g := State.writeQueues) (fun _ _ _ => rfl) (fun _ _ _ => rfl) ..)
    (emptyPollQueue_read (g := State.timeBase) (fun _ _ _ => rfl) (fun _ _ _ => rfl) ..), emptyPollQueue_worn hitems hp⟩

/-! ## The owners' parts -/

/-- R60: which writes fail at once. -/
abbrev WriteRecord.waiting (r : WriteRecord) : Bool := decide (r.state = .queued ∨ r.state = .held)

theorem failureReason_imposed (why : Reason) : (failureReason why).imposed := by
  unfold failureReason Reason.imposed
  split <;> simp

/-- R50, R60. -/
theorem departWrites_end (p : Node → Bool) (l : Link) {fail : Reason} (hfail : fail ≠ .ok) : WritesEnd p l WriteRecord.waiting fail id
    (WriteRecord.lapsing (fun _ => true) fail) (departWrites l fail) where
  hands u hp := ((failWrites_ends hfail hp).toHands.trans (lapseReservations_hands l (fun _ => true) fail _)).congr
    (List.append_nil _).symm (fun _ => (List.append_nil _).symm) fun _ => rfl
  queues u := by
    rw [departWrites, lapseReservations_writeQueues, failWrites_writeQueues, upd_upd]
    refine upd_congr _ _ ?_
    rw [List.map_id]
  arbiters u := departWrites_arbiters l fail u
  apart r hr := by
    rcases of_decide_eq_true hr with h | h <;> simp [h]
  node r := rfl
  state r := Iff.rfl
  same r _ := rfl

/-- R124. -/
theorem departArbiter_end {p : Node → Bool} {fail : Reason} (hfail : fail.imposed)
    (hrequests : ∀ g, ∀ r ∈ s.request l g, p r.node = true) (hfetches : ∀ f ∈ (s.arbiters.get l).fetches, p f.node = true) :
    ArbiterEnds p l fail fail (departArbiter l fail) s := by
  intro u harbiters hm
  have hrule : EndRule fail fail fun _ => fail := ⟨fun _ _ => rfl, fun _ _ => rfl, hfail, hfail⟩
  have hboth := endBoth_ends (p := p) (l := l) (ends := fun _ => true) (q := fun _ => true) hrule hm
    (fun g r hr _ => (hrequests g r (State.request_of_arbiters harbiters g ▸ hr)).symm) fun f hf => (hfetches f (harbiters ▸ hf)).symm
  have hcleared (v : State) : v.Ends p l [] (fun _ => []) (fun _ => []) (v.modArbiter l fun a => { a with idents := [] }) :=
    .of_same rfl rfl rfl rfl rfl
  exact (hboth.trans (hcleared _)).congr (List.append_nil _).symm (fun _ => (List.append_nil _).symm) fun _ => (List.append_nil _).symm

end

end Sys2Proof.Machine

/-!
# DepartureEndsLinkWork (R104)
-/

namespace Sys2Proof.Machine

set_option Elab.async false

section
variable {l : Link} {next : LinkState} {why : Reason} {s : State}

/-- The nodes of a link. -/
abbrev onLink (l : Link) (n : Node) : Bool := decide (nodeLink n = l)

/-- The nodes that are meant are those of the requests and fetches there are. -/
theorem State.imposed_congr_nodes {p p' : Node → Bool} (hrequests : ∀ g, ∀ r ∈ s.request l g, p r.node = p' r.node)
    (hfetches : ∀ f ∈ (s.arbiters.get l).fetches, p f.node = p' f.node) (write fetch : Reason) (h : Host) :
    s.imposed l p write fetch h = s.imposed l p' write fetch h ∧ s.imposedFetches l p fetch h = s.imposedFetches l p' fetch h := by
  have htold (g : Tag) : s.tagTold l p write fetch h g = s.tagTold l p' write fetch h g
      ∧ s.tagResults l p fetch h g = s.tagResults l p' fetch h g := by
    unfold State.tagTold State.tagResults
    cases hr : s.request l g with
    | none => exact ⟨rfl, rfl⟩
    | some r =>
      dsimp only
      rw [hrequests g r hr]
      exact ⟨rfl, rfl⟩
  simp only [State.imposed_eq, State.imposedFetches_eq, List.filter_congr hfetches]
  exact ⟨congrArg (· ++ _) (List.flatMap_congr fun g _ => (htold g).1), congrArg (· ++ _) (List.flatMap_congr fun g _ => (htold g).2)⟩

/-- R79: all there is on a link is of the link's nodes. -/
theorem onLink_of_trafficOk (hs : s.trafficOk) (l : Link) : (∀ g, ∀ r ∈ s.request l g, onLink l r.node = true)
    ∧ (∀ f ∈ (s.arbiters.get l).fetches, onLink l f.node = true) ∧ ∀ r ∈ (s.writeQueues.get l).order, onLink l r.node = true :=
  ⟨fun g r hr => decide_eq_true (hs.2.1 l g r hr).1, fun f hf => decide_eq_true (hs.2.2.2.1 l f hf).1,
    fun r hr => decide_eq_true (hs.2.2.2.2.2.1.1 l r hr).1⟩

/-- The state in which the owners act. -/
def departEmptied (l : Link) (next : LinkState) (why : Reason) (s : State) : State := emptyPollQueue l (departMoved l next why s)

theorem departLink_eq' (l : Link) (next : LinkState) (why : Reason) (s : State) :
    departLink l next why s = forEntries (s.departs l) suspendEntry (departEnded l why (departEmptied l next why s)) := rfl

theorem departEmptied_writeQueues (l : Link) (next : LinkState) (why : Reason) (s : State) :
    (departEmptied l next why s).writeQueues = s.writeQueues :=
  (emptyPollQueue_read (g := State.writeQueues) (fun _ _ _ => rfl) (fun _ _ _ => rfl) ..).trans (departMoved_writeQueues ..)

theorem departEmptied_arbiters (l : Link) (next : LinkState) (why : Reason) (s : State) :
    (departEmptied l next why s).arbiters = upd s.arbiters l fun a => { a with txOrder := [], onLine := none } :=
  (emptyPollQueue_read (g := State.arbiters) (fun _ _ _ => rfl) (fun _ _ _ => rfl) ..).trans (departMoved_arbiters ..)

theorem departEmptied_request (l : Link) (next : LinkState) (why : Reason) (s : State) (g : Tag) :
    (departEmptied l next why s).request l g = s.request l g := by
  rw [State.request, departEmptied_arbiters, get_upd_self, State.request]

theorem departEmptied_fetches (l : Link) (next : LinkState) (why : Reason) (s : State) :
    ((departEmptied l next why s).arbiters.get l).fetches = (s.arbiters.get l).fetches := by
  rw [departEmptied_arbiters, get_upd_self]

theorem State.ItemsFit.departMoved (h : s.ItemsFit) : (departMoved l next why s).ItemsFit :=
  h.of_view (by rw [entryView, departMoved_slots, departMoved_pollQueues])

theorem departEmptied_hands (hitems : s.ItemsFit) :
    s.Hands (onLink l) [] (fun _ => s.departNews l next why) (fun _ => []) (departEmptied l next why s) :=
  ((departMoved_hands (onLink l) l next why s).trans (emptyPollQueue_hands (p := onLink l) hitems.departMoved fun _ => decide_eq_true)).congr rfl
    (fun _ => (List.append_nil _).symm) fun _ => rfl

theorem departEnded_ended (hs : s.trafficOk) (hout : s.outstandingOk) :
    Ended (onLink l) l WriteRecord.waiting (failureReason why) (failureReason why) (failureReason why) id
      (WriteRecord.lapsing (fun _ => true) (failureReason why)) (departArbiter l (failureReason why)) (departEmptied l next why s)
      (departEnded l why (departEmptied l next why s)) := by
  obtain ⟨hrequests, hfetches, hwrites⟩ := onLink_of_trafficOk hs l
  have hm (n : Node) : (departEmptied l next why s).Matched l n :=
    (State.matched_of_outstandingOk hout l n).of_same (departEmptied_request l next why s) (by rw [departEmptied_writeQueues])
  refine eitherOrder_ended _ (departArbiter_end (failureReason_imposed why) (fun g r hr => ?_) fun f hf => ?_)
    (departWrites_end (onLink l) l (failureReason_ne_ok why)) hm fun r hr _ => ?_
  · exact hrequests g r (departEmptied_request l next why s g ▸ hr)
  · exact hfetches f (departEmptied_fetches l next why s ▸ hf)
  · rw [departEmptied_writeQueues] at hr
    exact hwrites r hr

/-- Every write taken on the link ends. -/
theorem all_end (hs : s.trafficOk) (hout : s.outstandingOk) {r : WriteRecord} (hr : r ∈ (s.writeQueues.get l).order) :
    (r.endsOf (onLink l) || r.waiting) = true := by
  have hnode := (onLink_of_trafficOk hs l).2.2 r hr
  have hstate := ((hout l).2.1 r hr).1
  rw [WriteRecord.endsOf, hnode]
  cases h : r.state <;> simp [WriteRecord.waiting, h] at hstate ⊢

theorem departLink_hands (hs : s.trafficOk) (hout : s.outstandingOk) (hitems : s.ItemsFit) :
    ∃ (requestsFirst : Bool) (ws : List WriteRecord), ws.Perm (s.writeQueues.get l).order
      ∧ s.Hands (onLink l) ws (fun h => s.departNews l next why ++ if requestsFirst then
          s.imposed l (fun _ => true) (failureReason why) (failureReason why) h
            ++ ((s.writeQueues.get l).order.filter WriteRecord.waiting).filterMap (WriteRecord.failing h (failureReason why))
        else ((s.writeQueues.get l).order.filter WriteRecord.waiting).filterMap (WriteRecord.failing h (failureReason why))
          ++ s.imposed l (fun _ => true) (failureReason why) (failureReason why) h)
        (s.imposedFetches l (fun _ => true) (failureReason why)) (departLink l next why s) := by
  obtain ⟨hrequests, hfetches, -⟩ := onLink_of_trafficOk hs l
  obtain ⟨b, ws, hperm, hhands⟩ := (departEnded_ended (next := next) (why := why) (l := l) hs hout).hands
  have hsuspended := forEntries_suspendEntry_hands (p := onLink l) (q := s.departs l) (fun e he => decide_eq_true ((s.departs_iff l e).1 he).1)
    (departEnded l why (departEmptied l next why s))
  have hsame (h : Host) := State.imposed_congr (p := onLink l) (departEmptied_request l next why s) (departEmptied_fetches l next why s)
    (fun n => by rw [departEmptied_writeQueues]) (failureReason why) (failureReason why) h
  have hnodes (h : Host) := State.imposed_congr_nodes (p := fun _ => true) (p' := onLink l) (fun g r hr => (hrequests g r hr).symm)
    (fun f hf => (hfetches f hf).symm) (failureReason why) (failureReason why) h
  rw [departEmptied_writeQueues] at hperm hhands
  rw [List.filter_eq_self.2 fun r hr => all_end hs hout hr] at hperm
  refine ⟨b, ws, hperm, (((departEmptied_hands hitems).trans hhands).trans hsuspended).congr (List.append_nil _).symm (fun h => ?_) fun h => ?_⟩
  · rw [(hsame h).1, (hnodes h).1, List.append_nil]
  · rw [(hsame h).2, (hnodes h).2, List.append_nil]
    rfl

/-! ## Entries -/

theorem departLink_polls (hs : s.trafficOk) (hpolls : s.pollsOk) :
    (departLink l next why s).PollsFit ∧ (departLink l next why s).MarksFit fun n => nodeLink n = l := by
  obtain ⟨hfit, hmarks⟩ := (State.pollsOk_iff hs).1 hpolls
  have hflights : s.SameFlights (departMoved l next why s) := fun m g => by
    rw [departMoved_request]
    exact sameWork_refl (s.arbiters.get m) g
  have hmoved : PollAct ⟨false, false, false⟩ s (departMoved l next why s) :=
    .same (departMoved_slots ..) (departMoved_pollQueues ..) hflights
  have hacts : PollActs ⟨false, false, false⟩ (departEmptied l next why s) (departLink l next why s) :=
    Acts.pollActs (net := false) (departLink_rest_acts l why _ (s.departs l) _)
  have hfit' := polls_pollAct hmoved hfit
  exact ⟨hacts.keeps (fun _ _ => polls_pollAct) (hfit'.emptyPollQueue l),
    hacts.keeps (fun _ _ h => marks_pollAct h rfl) (emptied_marks (marks_pollAct hmoved rfl hmarks) hfit'.entries)⟩

theorem departLink_linesGone (l : Link) (next : LinkState) (why : Reason) (s : State) : (departLink l next why s).LinesGone l := by
  have haside := forEntries_suspendEntry_aside (s.departs l) (departEnded l why (departEmptied l next why s))
  exact State.LinesGone.of_arbiters (eitherOrder_of_first _ (departArbiter_gone l (failureReason why))
    (fun x hx => hx.of_arbiters (departWrites_arbiters l (failureReason why) x)) (departEmptied l next why s))
    (haside.read (g := State.arbiters) fun _ _ _ _ => rfl)

/-- R25: all entries of the link are SUSPENDED, with no polls left. -/
theorem departLink_left (hs : s.trafficOk) (hpolls : s.pollsOk) (i : SlotIx) (e : Entry)
    (he : (departLink l next why s).entry i = some e) (hnode : onLink l e.node = true) :
    e.state = .suspended ∧ e.phase = .idle ∧ e.repoll = false := by
  obtain ⟨hfit, hmarks⟩ := departLink_polls (l := l) (next := next) (why := why) hs hpolls
  have hlink := of_decide_eq_true hnode
  have hstate : e.state = .suspended := by
    by_contra hstate
    have hflows := departLink_flows (l := l) (next := next) (why := why) (s.trafficOk_iff_flows.1 hs).2
    have hpresent : (departLink l next why s).presence e.node = .present := hflows.fits.entries.entries i e he hstate
    rw [State.presence, (departLink_records l next why s).1, if_pos hlink] at hpresent
    cases hpresent
  refine ⟨hstate, hfit.idle_of_suspended hmarks he hstate ?_⟩
  rintro ⟨g, r, hr, -⟩
  rw [hlink, (departLink_linesGone l next why s).1 g] at hr
  cases hr

/-! ## The arbiter -/

theorem departArbiter_arbiters (l : Link) (fail : Reason) {u : State} (htx : (u.arbiters.get l).txOrder = [])
    (hline : (u.arbiters.get l).onLine = none) : (departArbiter l fail u).arbiters = upd u.arbiters l fun a =>
      { a.endTags (fun _ => true) (List.finRange 8) with onLine := none, fetches := [], idents := [] } := by
  obtain ⟨line, h, hl⟩ := endRequests_arbiters l (fun _ => true) (fun _ => fail) u
  have hnone : line = none := by
    rcases hl with hl | ⟨g, r, rest, -, hcons, -⟩
    · exact hl.trans hline
    · rw [htx] at hcons
      cases hcons
  rw [departArbiter, State.modArbiter_arbiters, endFetches_arbiters, h, upd_upd, upd_upd, hnone]
  refine upd_congr _ _ ?_
  simp

theorem departLink_arbiters (hs : s.trafficOk) (hout : s.outstandingOk) : (departLink l next why s).arbiters = upd s.arbiters l fun a =>
    { ({ a with txOrder := [], onLine := none } : Arbiter).endTags (fun _ => true) (List.finRange 8) with
      onLine := none, fetches := [], idents := [] } := by
  have haside := forEntries_suspendEntry_aside (s.departs l) (departEnded l why (departEmptied l next why s))
  obtain ⟨u, harbiters, -, hafter⟩ := (departEnded_ended (next := next) (why := why) (l := l) hs hout).arbiters
  rw [departEmptied_arbiters] at harbiters
  rw [departLink_eq']
  refine (haside.read (g := State.arbiters) fun _ _ _ _ => rfl).trans (hafter.trans ?_)
  rw [departArbiter_arbiters l _ (by rw [harbiters, get_upd_self]) (by rw [harbiters, get_upd_self]), harbiters, upd_upd]

theorem departLink_writeQueues (hs : s.trafficOk) (hout : s.outstandingOk) : (departLink l next why s).writeQueues
    = upd s.writeQueues l fun qu => { qu with
      order := [], reserved := qu.reserved.map (WriteRecord.lapsing (fun _ => true) (failureReason why)) } := by
  have haside := forEntries_suspendEntry_aside (s.departs l) (departEnded l why (departEmptied l next why s))
  have hended := (departEnded_ended (next := next) (why := why) (l := l) hs hout).queues
  rw [departEmptied_writeQueues] at hended
  rw [departLink_eq']
  refine (haside.read (g := State.writeQueues) fun _ _ _ _ => rfl).trans (hended.trans (upd_congr _ _ ?_))
  have hnone : ((s.writeQueues.get l).order.filter fun r => !(r.endsOf (onLink l) || r.waiting)) = [] :=
    List.filter_eq_nil_iff.2 fun r hr => by rw [all_end hs hout hr]; decide
  rw [hnone, List.map_nil]

end

/-- Settles O35: the link is quiet and its poll queue emptied, the owners end its work in either order, and its entries are suspended. -/
theorem departureEndsLinkWork : Obligations.DepartureEndsLinkWork := by
  intro l next why s hs hout hpolls
  dsimp only
  obtain ⟨hnodes, hlinks⟩ := departLink_records l next why s
  obtain ⟨hrequests, hidents, hfetches⟩ := departLink_linesGone l next why s
  have harbiters := departLink_arbiters (l := l) (next := next) (why := why) hs hout
  have hqueues := departLink_writeQueues (l := l) (next := next) (why := why) hs hout
  have hitems := ((State.pollsOk_iff hs).1 hpolls).1.entries
  have hfit := (departLink_polls (l := l) (next := next) (why := why) hs hpolls).1
  have hleft := departLink_left (l := l) (next := next) (why := why) hs hpolls
  obtain ⟨requestsFirst, ws, hperm, hhands⟩ := departLink_hands (l := l) (next := next) (why := why) hs hout hitems
  have hread {α : Type} {g : State → α} (hH : IgnoresHosts g) (hS : IgnoresSlots g) (hP : IgnoresPolls g) (hW : IgnoresWrites g)
      (hA : IgnoresArbiters g) (hN : IgnoresNodes g) (hC : IgnoresChoices g) (hK : IgnoresLinks g) : g (departLink l next why s) = g s :=
    departLink_read hH hS hP hW hA hN hK hC ..
  refine ⟨?_, ⟨requestsFirst, fun h => ?_⟩, fun n hn => ?_, ?_, fun g => ⟨hrequests g, ?_⟩, hidents, hfetches, ?_, ?_, ?_, ?_, ?_,
    fun i => ?_, fun m hm => ⟨?_, ?_, ?_, ?_⟩, fun n hn => ?_, ?_, ?_, ?_⟩
  · rw [hlinks, get_upd_self]
    rfl
  · rw [hhands.tells.hosts, State.departNews]
    have hannounces : announces (s.linkState l) next = decide (next = .down ∨ s.linkState l = .enumerating ∨ s.linkState l = .up) := by
      simp [announces, Bool.or_assoc]
    rw [hannounces]
    simp only [decide_eq_true_eq]
    rfl
  · rw [hnodes, if_pos hn]
    rfl
  · rw [hhands.worn.pollQueue hfit.entries fun i e he hn => (hleft i e he hn).1]
    refine List.filter_eq_nil_iff.2 fun item hitem => ?_
    obtain ⟨e, he, hlink, -⟩ := hitems.items l item hitem
    have he : s.entry item.slot = some e := he
    simp [State.outside, he, hlink]
  · rw [harbiters, get_upd_self]
    dsimp only
    rw [Arbiter.endTags_tags]
    split <;> rfl
  · rw [harbiters, get_upd_self]
    rfl
  · rw [harbiters, get_upd_self]
  · rw [harbiters, get_upd_self]
    rfl
  · rw [hqueues, get_upd_self]
  · rw [hqueues, get_upd_self]
    refine List.map_congr_left fun r _ => ?_
    simp [WriteRecord.lapsing, failureReason]
  · rw [hhands.worn.slots hleft i]
    refine congrArg (fun e => ({ s.slots.get i with entry := e } : Slot)) (Option.map_congr fun e _ => ?_)
    rw [hperm.countP_eq]
    simp only [decide_eq_true_eq]
  · rw [harbiters, get_upd_ne _ _ hm]
  · rw [hqueues, get_upd_ne _ _ hm]
  · exact hhands.worn.pollQueue_other hfit.entries hitems (fun i e he hn => (hleft i e he hn).1) (fun _ => of_decide_eq_true) hm
  · rw [hlinks, get_upd_ne _ _ hm]
  · rw [hnodes, if_neg hn]
  · exact hread (g := State.claims) (fun _ _ _ => rfl) (fun _ _ _ => rfl) (fun _ _ _ => rfl) (fun _ _ _ => rfl) (fun _ _ _ => rfl)
      (fun _ _ _ => rfl) (fun _ _ => rfl) fun _ _ _ => rfl
  · exact hread (g := State.timeBase) (fun _ _ _ => rfl) (fun _ _ _ => rfl) (fun _ _ _ => rfl) (fun _ _ _ => rfl) (fun _ _ _ => rfl)
      (fun _ _ _ => rfl) (fun _ _ => rfl) fun _ _ _ => rfl
  · exact hread (g := State.periods) (fun _ _ _ => rfl) (fun _ _ _ => rfl) (fun _ _ _ => rfl) (fun _ _ _ => rfl) (fun _ _ _ => rfl)
      (fun _ _ _ => rfl) (fun _ _ => rfl) fun _ _ _ => rfl

end Sys2Proof.Machine

/-!
# Writes that fail while their node's entries are not VALID, and entries that are resumed (R23, R26, R58, R59)
-/

namespace Sys2Proof.Machine

set_option Elab.async false

section
variable {n : Node} {s t u : State} {i : SlotIx}

/-! ## One slot -/

/-- The entry of a slot, if not VALID, is as before but for its epoch and phase. -/
def State.Pales (i : SlotIx) (s t : State) : Prop :=
  ∀ e, s.entry i = some e → e.state ≠ .valid → ∃ e', t.entry i = some e' ∧ e' = { e with epoch := e'.epoch, phase := e'.phase }

theorem State.Pales.of_slots (h : t.slots = s.slots) : s.Pales i t := fun e he _ => ⟨e, by rwa [State.entry, h], rfl⟩

theorem State.Pales.trans (h : s.Pales i t) (h' : t.Pales i u) : s.Pales i u := fun e he hstate => by
  obtain ⟨e', he', heq⟩ := h e he hstate
  obtain ⟨e'', he'', heq'⟩ := h' e' he' (by rw [heq]; exact hstate)
  exact ⟨e'', he'', by rw [heq', heq]⟩

/-- Asking for a poll is a matter of the phase. -/
theorem Entry.asked_eq (e : Entry) : e.asked = { e with phase := e.asked.phase } := by
  unfold Entry.asked
  split <;> rfl

theorem Entry.asked_of_quiet {e : Entry} (h : ¬ (e.phase = .idle ∧ e.pollable = true)) : e.asked = e := if_neg h

/-- An entry that has asked asks no more. -/
theorem Entry.asked_quiet (e : Entry) : ¬ (e.asked.phase = .idle ∧ e.asked.pollable = true) := by
  by_cases h : e.phase = .idle ∧ e.pollable = true
  · rw [Entry.asked, if_pos h]
    simp
  · rwa [Entry.asked_of_quiet h]

/-- What a failed write makes of an entry that is not VALID. -/
theorem Entry.writeFailed_pale {e : Entry} (hstate : e.state ≠ .valid) :
    e.writeFailed.asked = { e with epoch := e.writeFailed.asked.epoch, phase := e.writeFailed.asked.phase } := by
  have hfailed : e.writeFailed = { e with epoch := e.epoch + 1 } := by rw [Entry.writeFailed, if_neg hstate]
  rw [hfailed, Entry.asked_eq]

theorem mirrorWriteFailed_pales (n : Node) (a : Word16) (len : Nat) (s : State) (i : SlotIx) : s.Pales i (mirrorWriteFailed n a len s) := by
  intro e he hstate
  refine ⟨_, by rw [(mirrorWriteFailed_applied n a len s).entry, he]; rfl, ?_⟩
  dsimp only [EntryRule.when]
  split
  · exact e.writeFailed_pale hstate
  · rfl

theorem finishWrite_pales (l : Link) (r : WriteRecord) {why : Reason} (hwhy : why ≠ .ok) (s : State) (i : SlotIx) :
    s.Pales i (finishWrite l r why s) := by
  have hslots := (finishWrite_slots l r why s).1
  rw [mirrorEnding, if_neg hwhy] at hslots
  exact (mirrorWriteFailed_pales r.node r.address r.data.length s i).trans (.of_slots hslots)

theorem failWrites_pales (l : Link) (q : WriteRecord → Bool) {why : Reason} (hwhy : why ≠ .ok) (s : State) (i : SlotIx) :
    s.Pales i (failWrites l q why s) := by
  have hfold (rs : List WriteRecord) (u : State) : u.Pales i (rs.foldl (fun s r => finishWrite l r why s) u) := by
    induction rs generalizing u with
    | nil => exact .of_slots rfl
    | cons r rs ih => exact (finishWrite_pales l r hwhy u i).trans (ih _)
  exact hfold _ s

/-! ## All entries -/

/-- No entry of the node is VALID, or asks for a poll when a write fails. -/
def State.Dull (n : Node) (s : State) : Prop :=
  ∀ i, ∀ e, s.entry i = some e → e.node = n → e.state ≠ .valid ∧ ¬ (e.phase = .idle ∧ e.pollable = true)

/-- Only the epochs of entries are others. -/
structure State.OnlyEpochs (s t : State) : Prop where
  entries : ∀ i, Option.Rel (fun e e' : Entry => e' = { e with epoch := e'.epoch }) (s.entry i) (t.entry i)
  generation : ∀ i, (t.slots.get i).generation = (s.slots.get i).generation
  polls : t.pollQueues = s.pollQueues

theorem State.OnlyEpochs.of_same (hslots : t.slots = s.slots) (hpolls : t.pollQueues = s.pollQueues) : s.OnlyEpochs t where
  entries i := by
    rw [show t.entry i = s.entry i by rw [State.entry, hslots, State.entry]]
    exact rel_refl (R := fun e e' : Entry => e' = { e with epoch := e'.epoch }) (fun _ => rfl) _
  generation i := by rw [hslots]
  polls := hpolls

theorem State.OnlyEpochs.trans (h : s.OnlyEpochs t) (h' : t.OnlyEpochs u) : s.OnlyEpochs u where
  entries i := by
    have hrel := h.entries i
    have hrel' := h'.entries i
    generalize s.entry i = x, t.entry i = y, u.entry i = z at hrel hrel'
    cases hrel with
    | none => cases hrel'; exact .none
    | some heq =>
      cases hrel' with
      | some heq' => exact .some (by rw [heq', heq])
  generation i := (h'.generation i).trans (h.generation i)
  polls := h'.polls.trans h.polls

theorem State.OnlyEpochs.dull (h : s.OnlyEpochs t) (hs : s.Dull n) : t.Dull n := by
  intro i e' he' hnode
  have hrel := h.entries i
  rw [he'] at hrel
  generalize hx : s.entry i = x at hrel
  cases hrel with
  | @some e _ heq =>
    have hdull := hs i e hx (by rw [heq] at hnode; exact hnode)
    rw [heq]
    exact hdull

theorem mirrorWriteFailed_onlyEpochs (a : Word16) (len : Nat) (hs : s.Dull n) : s.OnlyEpochs (mirrorWriteFailed n a len s) := by
  have ha := mirrorWriteFailed_applied n a len s
  refine ⟨fun i => ?_, fun i => by rw [ha.slots], Vector.ext fun k hk => ?_⟩
  · rw [ha.entry]
    cases he : s.entry i with
    | none => exact .none
    | some e =>
      refine .some ?_
      dsimp only [EntryRule.when]
      split
      · next htouched =>
        obtain ⟨hvalid, hasks⟩ := hs i e he ((Entry.touchedBy_iff ..).1 htouched).1
        change e.writeFailed.asked = { e with epoch := e.writeFailed.asked.epoch }
        rw [show e.writeFailed = { e with epoch := e.epoch + 1 } by rw [Entry.writeFailed, if_neg hvalid],
          Entry.asked_of_quiet (e := { e with epoch := e.epoch + 1 }) hasks]
      · rfl
  · have hpolls := ha.polls ⟨k, hk⟩
    have hnone : ((List.finRange 48).filter fun i => (s.entry i).any fun e =>
        (writeFailedRule.when fun e => e.touchedBy n a.toNat len).asks e && decide (nodeLink e.node = ⟨k, hk⟩)) = [] := by
      refine List.filter_eq_nil_iff.2 fun i _ hasks => ?_
      obtain ⟨e, he, hask⟩ := (Option.any_eq_true ..).1 hasks
      simp only [EntryRule.when, writeFailedRule, Bool.and_eq_true, decide_eq_true_eq] at hask
      obtain ⟨⟨htouched, hidle, hpollable⟩, -⟩ := hask
      obtain ⟨hvalid, hquiet⟩ := hs i e he ((Entry.touchedBy_iff ..).1 htouched).1
      rw [Entry.writeFailed, if_neg hvalid] at hpollable
      exact hquiet ⟨hidle, hpollable⟩
    rw [hnone, List.map_nil, List.append_nil] at hpolls
    simpa [Vector.get_eq_getElem] using hpolls

theorem finishWrite_onlyEpochs (l : Link) {r : WriteRecord} {why : Reason} (hwhy : why ≠ .ok) (hs : s.Dull r.node) :
    s.OnlyEpochs (finishWrite l r why s) := by
  obtain ⟨hslots, hpolls⟩ := finishWrite_slots l r why s
  rw [mirrorEnding, if_neg hwhy] at hslots hpolls
  exact (mirrorWriteFailed_onlyEpochs r.address r.data.length hs).trans (.of_same hslots hpolls)

theorem failWrites_onlyEpochs (l : Link) {q : WriteRecord → Bool} {why : Reason} (hwhy : why ≠ .ok) (hs : s.Dull n)
    (hq : ∀ r, q r = true → r.node = n) : s.OnlyEpochs (failWrites l q why s) := by
  have hfold (rs : List WriteRecord) (hrs : ∀ r ∈ rs, r.node = n) (u : State) (hu : u.Dull n) :
      u.OnlyEpochs (rs.foldl (fun s r => finishWrite l r why s) u) := by
    induction rs generalizing u with
    | nil => exact .of_same rfl rfl
    | cons r rs ih =>
      have hone := finishWrite_onlyEpochs l hwhy (s := u) (r := r) (by rw [hrs r List.mem_cons_self]; exact hu)
      exact hone.trans (ih (fun x hx => hrs x (List.mem_cons_of_mem _ hx)) _ (hone.dull hu))
  exact hfold _ (fun r hr => hq r (List.of_mem_filter hr)) s hs

/-! ## Entries resumed -/

theorem resumeNode_applied (n : Node) (s : State) :
    ((resumeRule s).when fun e => decide (e.node = n) && decide (e.state = .suspended)).Applied s (resumeNode n s) :=
  (resumeEntry_describes s).forEntries _

/-- R26: what a SUSPENDED entry is after its resumption. -/
structure Entry.Resumed (max : Nat) (e e' : Entry) : Prop where
  data : e'.data = e.data
  age : e'.age = e.age
  state : e'.state = if max < e.length then .failed else if e.hasData then .stale else .unfilled
  fault : max < e.length → e'.fault = .tooLong

theorem resumeRule_next (e : Entry) : Entry.Resumed (s.maxLength e.node) e ((resumeRule s).next e) := by
  unfold resumeRule
  dsimp only
  by_cases hlong : s.maxLength e.node < e.length
  · rw [if_pos hlong]
    exact ⟨rfl, rfl, (if_pos hlong).symm, fun _ => rfl⟩
  · rw [if_neg hlong, Entry.asked_eq]
    exact ⟨rfl, rfl, (if_neg hlong).symm, fun h => absurd h hlong⟩

theorem resumeNode_resumed {e : Entry} (he : s.entry i = some e) (hnode : e.node = n) (hstate : e.state = .suspended) :
    ∃ e', (resumeNode n s).entry i = some e' ∧ e.Resumed (s.maxLength n) e' := by
  refine ⟨(resumeRule s).next e, ?_, hnode ▸ resumeRule_next e⟩
  rw [(resumeNode_applied n s).entry, he, Option.map_some, EntryRule.when]
  dsimp only
  rw [if_pos (by simp [hnode, hstate])]

theorem Entry.Resumed.not_valid {max : Nat} {e e' : Entry} (h : e.Resumed max e') : e'.state ≠ .valid := by
  rw [h.state]
  split
  · simp
  · split <;> simp

/-- Resumed entries ask for no poll again. -/
theorem resumeNode_dull (hs : ∀ i, ∀ e, s.entry i = some e → e.node = n → e.state = .suspended) : (resumeNode n s).Dull n := by
  intro i e' he' hnode
  rw [(resumeNode_applied n s).entry] at he'
  obtain ⟨e, he, rfl⟩ := Option.map_eq_some_iff.1 he'
  have hkeeps : (((resumeRule s).when fun e => decide (e.node = n) && decide (e.state = .suspended)).next e).node = e.node := by
    unfold EntryRule.when resumeRule
    dsimp only
    split
    · split
      · rfl
      · rw [Entry.asked_eq]
    · rfl
  rw [hkeeps] at hnode
  have hstate := hs i e he hnode
  have hnext : ((resumeRule s).when fun e => decide (e.node = n) && decide (e.state = .suspended)).next e = (resumeRule s).next e := by
    rw [EntryRule.when]
    dsimp only
    rw [if_pos (by simp [hnode, hstate])]
  rw [hnext]
  refine ⟨(resumeRule_next (s := s) e).not_valid, ?_⟩
  unfold resumeRule
  dsimp only
  split
  · simp [Entry.pollable, Entry.tooLong]
  · exact Entry.asked_quiet _

/-- R26: which polls the resumption queues. -/
theorem resumeNode_pollQueues (n : Node) (s : State) (l : Link) : (resumeNode n s).pollQueues.get l = s.pollQueues.get l ++
    ((List.finRange 48).filter fun i => (s.entry i).any fun e => decide (e.node = n ∧ e.state = .suspended ∧ nodeLink e.node = l
      ∧ e.phase = .idle ∧ e.length ≤ s.maxLength n)).map s.item := by
  rw [(resumeNode_applied n s).polls]
  refine congrArg (fun xs => s.pollQueues.get l ++ xs.map s.item) (List.filter_congr fun i _ => ?_)
  cases s.entry i with
  | none => rfl
  | some e =>
    by_cases hnode : e.node = n
    · simp only [Option.any_some, EntryRule.when, resumeRule, hnode, Bool.decide_and, decide_true, Bool.true_and, Bool.and_assoc]
      cases decide (e.state = .suspended) <;> cases decide (nodeLink n = l) <;> cases decide (e.phase = .idle) <;>
        cases decide (e.length ≤ s.maxLength n) <;> rfl
    · simp [EntryRule.when, hnode]

/-- R26: what host `h` is told of the entry in slot `i`. -/
def State.resumeNews (s : State) (n : Node) (max : Nat) (h : Host) (i : SlotIx) : List (Option EventBody × Bool) :=
  match s.entry i with
  | none => []
  | some e =>
    if e.node = n ∧ e.state = .suspended ∧ max < e.length ∧ e.holders.get h ≠ none then
      [plainly .entryFailed (byteOf i.val) Reason.tooLong.code 0]
    else []

theorem State.resumeNews_plain (s : State) (n : Node) (max : Nat) (h : Host) (i : SlotIx) : Plain (s.resumeNews n max h i) := by
  unfold State.resumeNews
  split
  · exact plain_nil
  · split
    · exact plain_plainly _ _ _ _
    · exact plain_nil

theorem resumeNode_tells (n : Node) (s : State) : State.Tells [] (fun h => (List.finRange 48).flatMap (s.resumeNews n (s.maxLength n) h))
    (fun _ => []) s (resumeNode n s) := by
  have ha := resumeNode_applied n s
  refine State.Tells.plain (f := fun h hs => (List.finRange 48).foldl (fun hs i => (s.entry i).elim hs fun e =>
      ((resumeRule s).when fun e => decide (e.node = n) && decide (e.state = .suspended)).told i e h hs) hs) ha.hosts
    (ha.aside.read (g := State.writeQueues) fun _ _ _ _ => rfl) ha.aside.timeBase (fun h => .flatMap (s.resumeNews_plain n _ h) _) fun h hs => ?_
  rw [HostState.foldl_eq_handed (low16 s.timeBase) (s.coveredCount h) (s.resumeNews_plain n (s.maxLength n) h)]
  · exact (HostState.handed_same_fetchBuffer ..).symm
  · intro i hs
    unfold State.resumeNews
    cases he : s.entry i with
    | none => rfl
    | some e =>
      dsimp only [Option.elim, EntryRule.when, resumeRule]
      by_cases hnode : e.node = n
      · by_cases hlong : s.maxLength n < e.length
        · by_cases hstate : e.state = .suspended
          · by_cases hheld : e.holders.get h = none
            · simp [hnode, hlong, hstate, hheld, Entry.tells, Entry.heldBy, HostState.handed]
            · have hsome : (e.holders.get h).isSome = true := Option.isSome_iff_ne_none.2 hheld
              simp [hnode, hlong, hstate, hheld, hsome, Entry.tells, Entry.heldBy, HostState.handed_plainly]
          · simp [hstate, HostState.handed]
        · simp [hnode, hlong, HostState.handed]
      · simp [hnode, HostState.handed]

end

end Sys2Proof.Machine

/-!
# IdentEndingDecidesPresence (R83 to R86)
-/

namespace Sys2Proof.Machine

set_option Elab.async false

section
variable {n : Node} {s t u v : State} {l : Link}

/-! ## LINK_UP (R101, R110) -/

/-- What every host is told where the last enumeration IDENT has ended. -/
def State.upNews (u : State) (l : Link) : List (Option EventBody × Bool) :=
  if u.linkState l = .enumerating ∧ u.enumerationOpen l = false then
    [plainly .linkUp (byteOf l.val) 0 (BitVec.ofNat 16 ((List.finRange 8).countP fun m => nodeLink m = l ∧ u.presence m = .present))]
  else []

theorem reportEnumeration_tells (l : Link) (u : State) :
    State.Tells [] (fun _ => u.upNews l) (fun _ => []) u (reportEnumeration l u) := by
  unfold reportEnumeration State.upNews
  simp only [Bool.not_eq_true']
  split
  · let v := u.modLink l fun k => { k with state := .up, stamp := low16 u.timeBase }
    have hmoved : State.Tells [] (fun _ => []) (fun _ => []) u v := .of_same rfl rfl rfl
    have htold := broadcast_tells .linkUp (byteOf l.val) Reason.none.code (BitVec.ofNat 16 (v.presentCount l)) v
    rw [v.presentCount_eq] at htold
    rw [enterUp, State.presentCount_eq]
    exact hmoved.trans htold
  · exact .of_same rfl rfl rfl

theorem reportEnumeration_read {α : Type} {g : State → α} (hH : IgnoresHosts g) (hK : IgnoresLinks g) (l : Link) (u : State) :
    g (reportEnumeration l u) = g u := by
  unfold reportEnumeration
  split
  · rw [enterUp, broadcast_read hH]
    exact hK _ _ _
  · rfl

theorem reportEnumeration_linkState (l : Link) (u : State) : (reportEnumeration l u).linkState l
    = if u.linkState l = .enumerating ∧ u.enumerationOpen l = false then .up else u.linkState l := by
  unfold reportEnumeration
  simp only [Bool.not_eq_true']
  split
  · rw [enterUp, State.linkState, broadcast_read (g := State.links) (fun _ _ _ => rfl)]
    exact (State.modLink_linkState ..).trans (if_pos rfl)
  · rfl

/-- No other node of the link is still being identified for its enumeration. -/
abbrev State.last (s : State) (n : Node) : Prop := ∀ m, m ≠ n → nodeLink m = nodeLink n → (s.nodes.get m).cause ≠ some .enumeration

/-- The records of all nodes but `n` are as before, and `n` is not being identified; the links are as before. -/
structure State.Decided (s : State) (n : Node) (r : NodeRecord) (u : State) : Prop where
  nodes : u.nodes = upd s.nodes n fun _ => r
  cause : r.cause = none
  links : u.links = s.links

theorem State.Decided.enumerationOpen {r : NodeRecord} (h : s.Decided n r u) : u.enumerationOpen (nodeLink n) = false ↔ s.last n := by
  rw [State.enumerationOpen, List.any_eq_false]
  simp only [mem_linkNodes, decide_eq_true_eq, h.nodes, get_upd]
  constructor
  · intro hno m hm hlink
    have := hno m hlink
    rwa [if_neg hm] at this
  · intro hlast m hlink
    split
    · simp [h.cause]
    · next hm => exact hlast m hm hlink

theorem State.Decided.linkState {r : NodeRecord} (h : s.Decided n r u) (l : Link) : u.linkState l = s.linkState l := by
  rw [State.linkState, h.links, State.linkState]

theorem State.Decided.after {r : NodeRecord} (h : s.Decided n r u) :
    (∀ m, m ≠ n → (reportEnumeration (nodeLink n) u).nodes.get m = s.nodes.get m)
    ∧ (reportEnumeration (nodeLink n) u).linkState (nodeLink n)
      = (if s.linkState (nodeLink n) = .enumerating ∧ s.last n then .up else s.linkState (nodeLink n))
    ∧ (reportEnumeration (nodeLink n) u).nodes.get n = r := by
  have hnodes : (reportEnumeration (nodeLink n) u).nodes = u.nodes :=
    reportEnumeration_read (g := State.nodes) (fun _ _ _ => rfl) (fun _ _ _ => rfl) ..
  refine ⟨fun m hm => ?_, ?_, ?_⟩
  · rw [hnodes, h.nodes, get_upd_ne _ _ hm]
  · rw [reportEnumeration_linkState, h.linkState]
    simp only [h.enumerationOpen]
  · rw [hnodes, h.nodes, get_upd_self]

/-- What the statement calls `up`. -/
theorem State.Decided.upNews {r : NodeRecord} (h : s.Decided n r u) : u.upNews (nodeLink n)
    = if s.linkState (nodeLink n) = .enumerating ∧ s.last n then
        [plainly .linkUp (byteOf (nodeLink n).val) 0 (BitVec.ofNat 16 ((List.finRange 8).countP fun m =>
          nodeLink m = nodeLink n ∧ (reportEnumeration (nodeLink n) u).presence m = .present))] else [] := by
  have hpresence (m : Node) : (reportEnumeration (nodeLink n) u).presence m = u.presence m :=
    reportEnumeration_read (g := fun s => s.presence m) (fun _ _ _ => rfl) (fun _ _ _ => rfl) ..
  simp only [State.upNews, h.linkState, h.enumerationOpen, hpresence]

/-- The hosts, where no fetch has ended. -/
theorem State.Tells.hosts_of_no_fetch {ws : List WriteRecord} {xs : Host → List (Option EventBody × Bool)}
    (h : State.Tells ws xs (fun _ => []) s t) (g : Host) : t.hosts.get g = s.handed g (xs g) := by
  rw [h.hosts, State.handed_eq]
  exact HostState.handed_same_fetchBuffer ..

/-- Told before the link is reported. -/
theorem State.Decided.hosts {r : NodeRecord} (h : s.Decided n r u) {ws : List WriteRecord} {xs : Host → List (Option EventBody × Bool)}
    (htold : State.Tells ws xs (fun _ => []) s u) (g : Host) : (reportEnumeration (nodeLink n) u).hosts.get g = s.handed g (xs g
      ++ if s.linkState (nodeLink n) = .enumerating ∧ s.last n then
        [plainly .linkUp (byteOf (nodeLink n).val) 0 (BitVec.ofNat 16 ((List.finRange 8).countP fun m =>
          nodeLink m = nodeLink n ∧ (reportEnumeration (nodeLink n) u).presence m = .present))] else []) := by
  rw [← h.upNews]
  exact (htold.trans (reportEnumeration_tells (nodeLink n) u)).hosts_of_no_fetch g

/-! ## A node that is turned away (R59, R83, R85) -/

/-- The entries of the node are SUSPENDED. -/
def State.Asleep (n : Node) (s : State) : Prop := ∀ i, ∀ e, s.entry i = some e → e.node = n → e.state = .suspended

theorem State.Asleep.dull (h : s.Asleep n) : s.Dull n := fun i e he hnode => by
  have hstate := h i e he hnode
  exact ⟨by simp [hstate], by simp [hstate, Entry.pollable]⟩

theorem State.Asleep.of_slots (h : s.Asleep n) (hslots : t.slots = s.slots) : t.Asleep n := fun i e he =>
  h i e (by rwa [State.entry, ← hslots])

/-- R79: so they are while the node is identified. -/
theorem asleep_of_trafficOk (hs : s.trafficOk) (hn : s.presence n = .identifying) : s.Asleep n := fun i e he hnode => by
  by_contra hstate
  have hpresent := hs.2.2.2.2.1.1 i e he hstate
  rw [hnode, hn] at hpresent
  cases hpresent

abbrev WriteRecord.heldOf (n : Node) (r : WriteRecord) : Bool := decide (r.node = n ∧ r.state = .held)

theorem failNodeWrites_writeQueues (n : Node) (st : WriteState) (why : Reason) (v : State) : (failNodeWrites n st why v).writeQueues
    = upd v.writeQueues (nodeLink n) fun q => { q with order := q.order.filter fun r => !decide (r.node = n ∧ r.state = st) } :=
  failWrites_writeQueues ..

theorem failNodeWrites_tells {st : WriteState} {why : Reason} (hwhy : why ≠ .ok) (v : State) :
    State.Tells ((v.writeQueues.get (nodeLink n)).order.filter fun r => decide (r.node = n ∧ r.state = st))
      (fun h => ((v.writeQueues.get (nodeLink n)).order.filter fun r => decide (r.node = n ∧ r.state = st)).filterMap
        (WriteRecord.failing h why)) (fun _ => []) v (failNodeWrites n st why v) :=
  (failNodeWrites_ends (p := fun _ => true) hwhy v fun _ _ _ => rfl).tells

/-- A node that is turned away: its HELD writes fail after what the hosts are told of it. -/
theorem turnedAway {why : Reason} (hwhy : why ≠ .ok) {event : List (Option EventBody × Bool)} (htold : State.Tells [] (fun _ => event) (fun _ => []) s v)
    (hwrites : v.writeQueues = s.writeQueues) (hslots : v.slots = s.slots) (hpolls : v.pollQueues = s.pollQueues) (hs : s.Asleep n) :
    (failNodeWrites n .held why v).pollQueues = s.pollQueues
    ∧ State.Tells ((s.writeQueues.get (nodeLink n)).order.filter (WriteRecord.heldOf n)) (fun h => event
        ++ ((s.writeQueues.get (nodeLink n)).order.filter (WriteRecord.heldOf n)).filterMap (WriteRecord.failing h why)) (fun _ => []) s
      (failNodeWrites n .held why v) := by
  have hepochs := failWrites_onlyEpochs (nodeLink n) (q := WriteRecord.heldOf n) hwhy (hs.of_slots hslots).dull fun r hr => (of_decide_eq_true hr).1
  have hfails := failNodeWrites_tells (n := n) (st := .held) hwhy v
  rw [hwrites] at hfails
  exact ⟨hepochs.polls.trans hpolls, htold.trans hfails⟩

/-! ## A node that arrives (R26, R58, R81) -/

/-- R58: which HELD writes are too long for the node. -/
abbrev WriteRecord.heldTooLong (n : Node) (max : Nat) (r : WriteRecord) : Bool := r.heldOf n && decide (max < r.data.length)

/-- R58: the others return. -/
abbrev WriteRecord.releasing (n : Node) (r : WriteRecord) : WriteRecord :=
  if r.node = n ∧ r.state = .held then { r with state := .queued } else r

theorem releaseWrites_writeQueues (n : Node) (v : State) : (releaseWrites n v).writeQueues = upd v.writeQueues (nodeLink n) fun q =>
    { q with order := (q.order.filter fun r => !r.heldTooLong n (v.maxLength n)).map (WriteRecord.releasing n) } := by
  rw [releaseWrites, State.modWrites_writeQueues, failWrites_writeQueues, upd_upd]

theorem releaseWrites_tells (n : Node) (v : State) :
    State.Tells ((v.writeQueues.get (nodeLink n)).order.filter (WriteRecord.heldTooLong n (v.maxLength n)))
      (fun h => ((v.writeQueues.get (nodeLink n)).order.filter (WriteRecord.heldTooLong n (v.maxLength n))).filterMap
        (WriteRecord.failing h .tooLong)) (fun _ => []) v (releaseWrites n v) := by
  have hfails := (failWrites_ends (p := fun _ => true) (l := nodeLink n) (s := v) (q := WriteRecord.heldTooLong n (v.maxLength n))
    (why := .tooLong) (by simp) fun _ _ _ => rfl).tells
  have hreturned : State.Tells [] (fun _ => []) (fun _ => []) (failWrites (nodeLink n) (WriteRecord.heldTooLong n (v.maxLength n)) .tooLong v)
      (releaseWrites n v) := by
    refine .of_covered rfl (fun h => coveredCount_modWrites h ?_) rfl
    rw [List.countP_map]
    refine List.countP_congr fun r _ => ?_
    rw [Function.comp_apply]
    split <;> rfl
  have hboth := (hfails.trans hreturned).congr (fun h => (List.append_nil _).symm) fun _ => rfl
  rwa [List.append_nil] at hboth

theorem releaseWrites_onlyEpochs (hs : s.Dull n) : s.OnlyEpochs (releaseWrites n s) :=
  (failWrites_onlyEpochs (nodeLink n) (q := WriteRecord.heldTooLong n (s.maxLength n)) (by simp) hs fun r hr =>
    (of_decide_eq_true (Bool.and_eq_true_iff.1 hr).1).1).trans (.of_same rfl rfl)

theorem releaseWrites_pales (n : Node) (s : State) (i : SlotIx) : s.Pales i (releaseWrites n s) :=
  (failWrites_pales (nodeLink n) (WriteRecord.heldTooLong n (s.maxLength n)) (by simp) s i).trans (.of_slots rfl)

theorem resumeNode_keeps (n : Node) (s : State) : (resumeNode n s).writeQueues = s.writeQueues ∧ (resumeNode n s).nodes = s.nodes :=
  ⟨(resumeNode_applied n s).aside.read (g := State.writeQueues) fun _ _ _ _ => rfl, (resumeNode_applied n s).aside.nodes⟩

theorem releaseWrites_nodes (n : Node) (s : State) : (releaseWrites n s).nodes = s.nodes :=
  releaseWrites_read (g := State.nodes) (fun _ _ _ => rfl) (fun _ _ _ => rfl) (fun _ _ _ => rfl) (fun _ _ _ => rfl) ..

theorem maxLength_of_nodes (h : t.nodes = s.nodes) (n : Node) : t.maxLength n = s.maxLength n := by rw [State.maxLength, h, State.maxLength]

/-- Either way the write queue is as released. -/
theorem resumed_writeQueues (b : Bool) (n : Node) (v : State) : (eitherOrder b (resumeNode n) (releaseWrites n) v).writeQueues
    = upd v.writeQueues (nodeLink n) fun q =>
      { q with order := (q.order.filter fun r => !r.heldTooLong n (v.maxLength n)).map (WriteRecord.releasing n) } := by
  obtain ⟨c, h | h⟩ := eitherOrder_cases b (resumeNode n) (releaseWrites n) v <;> rw [h]
  · rw [releaseWrites_writeQueues, maxLength_of_nodes (resumeNode_keeps n _).2, (resumeNode_keeps n _).1]
    rfl
  · rw [(resumeNode_keeps n _).1, releaseWrites_writeQueues]
    rfl

/-- Either way a SUSPENDED entry is resumed. -/
theorem resumed_entry (b : Bool) {i : SlotIx} {e : Entry} (he : v.entry i = some e) (hnode : e.node = n) (hstate : e.state = .suspended) :
    ∃ e', (eitherOrder b (resumeNode n) (releaseWrites n) v).entry i = some e' ∧ e.Resumed (v.maxLength n) e' := by
  obtain ⟨c, h | h⟩ := eitherOrder_cases b (resumeNode n) (releaseWrites n) v <;> rw [h]
  · obtain ⟨e₁, he₁, hresumed⟩ := resumeNode_resumed (s := { v with choices := c }) he hnode hstate
    obtain ⟨e₂, he₂, heq⟩ := releaseWrites_pales n (resumeNode n { v with choices := c }) i e₁ he₁ hresumed.not_valid
    refine ⟨e₂, he₂, ?_⟩
    rw [heq]
    exact ⟨hresumed.data, hresumed.age, hresumed.state, hresumed.fault⟩
  · obtain ⟨e₁, he₁, heq⟩ := releaseWrites_pales n { v with choices := c } i e he (by simp [hstate])
    obtain ⟨e₂, he₂, hresumed⟩ := resumeNode_resumed (n := n) he₁ (by rw [heq]; exact hnode) (by rw [heq]; exact hstate)
    rw [maxLength_of_nodes (releaseWrites_nodes n _), heq] at hresumed
    exact ⟨e₂, he₂, hresumed.data, hresumed.age, hresumed.state, hresumed.fault⟩

theorem State.OnlyEpochs.resumeNews (h : s.OnlyEpochs t) (n : Node) (max : Nat) (g : Host) (i : SlotIx) :
    t.resumeNews n max g i = s.resumeNews n max g i := by
  have hrel := h.entries i
  unfold State.resumeNews
  generalize s.entry i = x, t.entry i = y at hrel
  cases hrel with
  | none => rfl
  | some heq => rw [heq]; rfl

/-- The polls that a resumption queues. -/
def State.resumePolls (s : State) (n : Node) (max : Nat) (l : Link) : List PollItem :=
  ((List.finRange 48).filter fun i => (s.entry i).any fun e => decide (e.node = n ∧ e.state = .suspended ∧ nodeLink e.node = l
    ∧ e.phase = .idle ∧ e.length ≤ max)).map s.item

theorem State.OnlyEpochs.resumePolls (h : s.OnlyEpochs t) (n : Node) (max : Nat) (l : Link) :
    t.resumePolls n max l = s.resumePolls n max l := by
  have hitem : t.item = s.item := funext fun i => by rw [State.item, h.generation, State.item]
  unfold State.resumePolls
  rw [hitem]
  refine congrArg (List.map s.item) (List.filter_congr fun i _ => ?_)
  have hrel := h.entries i
  generalize s.entry i = x, t.entry i = y at hrel
  cases hrel with
  | none => rfl
  | some heq => rw [heq]; rfl

/-- R58, R81: entries and HELD writes in either order, each told of at its owner's turn. -/
theorem resumed_tells (b : Bool) (hs : v.Asleep n) : (∃ (entriesFirst : Bool) (ws : List WriteRecord), State.Tells ws (fun h =>
      if entriesFirst then (List.finRange 48).flatMap (v.resumeNews n (v.maxLength n) h)
        ++ ((v.writeQueues.get (nodeLink n)).order.filter (WriteRecord.heldTooLong n (v.maxLength n))).filterMap (WriteRecord.failing h .tooLong)
      else ((v.writeQueues.get (nodeLink n)).order.filter (WriteRecord.heldTooLong n (v.maxLength n))).filterMap (WriteRecord.failing h .tooLong)
        ++ (List.finRange 48).flatMap (v.resumeNews n (v.maxLength n) h)) (fun _ => []) v (eitherOrder b (resumeNode n) (releaseWrites n) v))
    ∧ ∀ l, (eitherOrder b (resumeNode n) (releaseWrites n) v).pollQueues.get l = v.pollQueues.get l ++ v.resumePolls n (v.maxLength n) l := by
  have hmoved (c : Nat) : State.Tells [] (fun _ => []) (fun _ => []) v { v with choices := c } := .of_same rfl rfl rfl
  obtain ⟨c, h | h⟩ := eitherOrder_cases b (resumeNode n) (releaseWrites n) v <;> rw [h]
  · have hentries := resumeNode_tells n { v with choices := c }
    have hwrites := releaseWrites_tells n (resumeNode n { v with choices := c })
    rw [maxLength_of_nodes (resumeNode_keeps n _).2, (resumeNode_keeps n _).1] at hwrites
    refine ⟨⟨true, _, (((hmoved c).trans hentries).trans hwrites).congr (fun _ => rfl) fun _ => rfl⟩, fun l => ?_⟩
    rw [(releaseWrites_onlyEpochs (resumeNode_dull (s := { v with choices := c }) hs)).polls, resumeNode_pollQueues]
    rfl
  · have hepochs := releaseWrites_onlyEpochs (s := { v with choices := c }) (n := n) hs.dull
    have hwrites := releaseWrites_tells n { v with choices := c }
    have hentries := resumeNode_tells n (releaseWrites n { v with choices := c })
    rw [maxLength_of_nodes (releaseWrites_nodes n _)] at hentries
    have hnews (g : Host) : (List.finRange 48).flatMap ((releaseWrites n { v with choices := c }).resumeNews n (v.maxLength n) g)
        = (List.finRange 48).flatMap (v.resumeNews n (v.maxLength n) g) :=
      List.flatMap_congr fun i _ => hepochs.resumeNews n (v.maxLength n) g i
    refine ⟨⟨false, _, (((hmoved c).trans hwrites).trans hentries).congr (fun g => congrArg (_ ++ ·) (hnews g).symm) fun _ => rfl⟩, fun l => ?_⟩
    rw [resumeNode_pollQueues, maxLength_of_nodes (releaseWrites_nodes n _), hepochs.polls]
    exact congrArg (v.pollQueues.get l ++ ·) (hepochs.resumePolls n (v.maxLength n) l)

end

end Sys2Proof.Machine

/-!
# IdentEndingDecidesPresence: the endings (R83 to R86)
-/

namespace Sys2Proof.Machine

set_option Elab.async false

section
variable {n : Node} {s t u v : State} {x : Identity} {c : BitVec 4}

/-! ## The identity is recorded (R84) -/

theorem forEntries_eq_self {p : Entry → Bool} {f : SlotIx → State → State} (h : ∀ i, ∀ e, s.entry i = some e → p e = true → f i s = s) :
    forEntries p f s = s := by
  have hslot (i : SlotIx) : (match s.entry i with
      | none => s
      | some e => if p e then f i s else s) = s := by
    split
    · rfl
    · next e he =>
      split
      · next hp => exact h i e he hp
      · rfl
  have hfold (is : List SlotIx) : is.foldl (fun s i => match s.entry i with
      | none => s
      | some e => if p e then f i s else s) s = s := by
    induction is with
    | nil => rfl
    | cons i is ih => rw [List.foldl_cons, hslot, ih]
  exact hfold _

/-- The entries of a node that is identified have no limits to meet. -/
theorem recordIdentity_of_asleep (hs : s.Asleep n) : recordIdentity n x c s = s.identify n x c := by
  unfold recordIdentity
  dsimp only
  split
  · rfl
  · refine forEntries_eq_self (s := s.identify n x c) fun i e he hnode => meetLimit_of_not_past fun e' he' => ?_
    have hstate := hs i e' he' (by rw [he] at he'; rw [← Option.some.inj he']; exact of_decide_eq_true hnode)
    simp [State.pastLimit, hstate]

theorem recordIdentity_pales (n : Node) (x : Identity) (c : BitVec 4) (s : State) (i : SlotIx) {e : Entry} (he : s.entry i = some e)
    (hstate : e.state ≠ .valid) : (recordIdentity n x c s).entry i = some e := by
  unfold recordIdentity
  dsimp only
  split
  · exact he
  · have ha := (meetLimit_describes (s.identify n x c)).forEntries fun e => decide (e.node = n)
    have he' : (s.identify n x c).entry i = some e := he
    refine (ha.entry i).trans ?_
    have hnot : (s.identify n x c).pastLimit e = false := by simp [State.pastLimit, hstate]
    rw [he', Option.map_some, EntryRule.when]
    dsimp only [limitRule, EntryRule.when]
    rw [hnot]
    split <;> rfl

theorem recordIdentity_maxLength (n : Node) (x : Identity) (c : BitVec 4) (s : State) : (recordIdentity n x c s).maxLength n = x.maxLength := by
  have hnodes : (recordIdentity n x c s).nodes = (s.identify n x c).nodes := (Prod.mk.inj (recordIdentity_netView n x c s)).1
  rw [State.maxLength, hnodes, State.identify, State.modNode_nodes, get_upd_self]
  rfl

/-! ## The two endings without arrival -/

theorem decided_failed (n : Node) (o : Reason) (s : State) : s.Decided n (s.nodes.get n).unanswered (identFailed n o s) := by
  obtain ⟨hnodes, hlinks⟩ := Prod.mk.inj (identFailed_netView n o s)
  exact ⟨hnodes.trans (upd_congr _ _ rfl), rfl, hlinks⟩

theorem decided_answered (n : Node) (x : Identity) (c : BitVec 4) (s : State) :
    s.Decided n ((s.nodes.get n).answered x c) (identAnswered n x c s) := by
  obtain ⟨hnodes, hlinks⟩ := Prod.mk.inj (identAnswered_netView n x c s)
  refine ⟨hnodes.trans (upd_congr _ _ rfl), ?_, hlinks⟩
  unfold NodeRecord.answered
  split <;> rfl

/-- R83: what the hosts are told of the node. -/
def NodeRecord.lossNews (n : Node) (o : Reason) (r : NodeRecord) : List (Option EventBody × Bool) :=
  if r.cause = some .restart ∨ r.cause = some .lift then [plainly .nodeLost (nodeRef n) o.code 0] else []

/-- R83: the state in which the HELD writes of a node that did not answer fail. -/
def failedTold (n : Node) (o : Reason) (s : State) : State :=
  let v := s.modNode n fun r => { r with presence := .absent, cause := none }
  if (s.nodes.get n).cause = some .restart ∨ (s.nodes.get n).cause = some .lift then nodeEvent .nodeLost n o 0 v else v

theorem identFailed_eq (n : Node) (o : Reason) (s : State) : identFailed n o s = failNodeWrites n .held .nodeLost (failedTold n o s) := rfl

theorem failedTold_tells (n : Node) (o : Reason) (s : State) :
    State.Tells [] (fun _ => (s.nodes.get n).lossNews n o) (fun _ => []) s (failedTold n o s) := by
  have hmoved : State.Tells [] (fun _ => []) (fun _ => []) s (s.modNode n fun r => { r with presence := .absent, cause := none }) :=
    .of_same rfl rfl rfl
  unfold failedTold NodeRecord.lossNews
  dsimp only
  split
  · exact hmoved.trans (broadcast_tells .nodeLost (nodeRef n) o.code 0 _)
  · exact hmoved

theorem failedTold_read {α : Type} {g : State → α} (hH : IgnoresHosts g) (hN : IgnoresNodes g) (n : Node) (o : Reason) (s : State) :
    g (failedTold n o s) = g s := by
  unfold failedTold
  dsimp only
  split
  · exact (broadcast_read hH _ _).trans (hN _ _ _)
  · exact hN _ _ _

/-- R85: the state in which the HELD writes of a node that its pin rejects fail. -/
def rejectedTold (n : Node) (x : Identity) (c : BitVec 4) (s : State) : State :=
  nodeEvent .nodeQuarantined n .ident x.model ((recordIdentity n x c s).modNode n fun r => { r with presence := .quarantined, cause := none })

theorem identAnswered_rejected (hpin : pinAccepts (s.nodes.get n).pin x.vendor x.model = false) :
    identAnswered n x c s = failNodeWrites n .held .quarantined (rejectedTold n x c s) := by
  unfold identAnswered
  dsimp only
  rw [if_neg (by simp [hpin])]
  rfl

theorem rejectedTold_tells (hs : s.Asleep n) : State.Tells []
    (fun _ => [plainly .nodeQuarantined (nodeRef n) Reason.ident.code x.model]) (fun _ => []) s (rejectedTold n x c s) := by
  have hmoved : State.Tells [] (fun _ => []) (fun _ => []) s
      ((s.identify n x c).modNode n fun r => { r with presence := .quarantined, cause := none }) := .of_same rfl rfl rfl
  rw [rejectedTold, recordIdentity_of_asleep hs]
  exact hmoved.trans (broadcast_tells .nodeQuarantined (nodeRef n) Reason.ident.code x.model _)

theorem rejectedTold_read {α : Type} {g : State → α} (hH : IgnoresHosts g) (hN : IgnoresNodes g) (n : Node) (x : Identity) (c : BitVec 4)
    (s : State) : g (rejectedTold n x c s) = g (recordIdentity n x c s) := (broadcast_read hH _ _).trans (hN _ _ _)

/-! ## The arrival -/

/-- R85: the state in which a node that is accepted is PRESENT, and the hosts told of it. -/
def arrivedTold (n : Node) (k : Option EventKind) (x : Identity) (c : BitVec 4) (s : State) : State :=
  let v := (recordIdentity n x c s).modNode n fun r => { r with presence := .present, cause := none, timeouts := 0 }
  match k with
  | none => v
  | some k => nodeEvent k n .none x.model v

/-- R85: which event that is. -/
abbrev NodeRecord.arrival (r : NodeRecord) (x : Identity) : Option EventKind := arrivalEvent r.identity x r.cause

theorem identAnswered_accepted (hpin : pinAccepts (s.nodes.get n).pin x.vendor x.model = true) : ∃ b, identAnswered n x c s
    = eitherOrder b (resumeNode n) (releaseWrites n) (arrivedTold n ((s.nodes.get n).arrival x) x c s) := by
  unfold identAnswered
  dsimp only
  rw [if_pos hpin]
  exact ⟨_, rfl⟩

theorem arrivedTold_tells (k : Option EventKind) (hs : s.Asleep n) : State.Tells []
    (fun _ => k.toList.map fun k => plainly k (nodeRef n) 0 x.model) (fun _ => []) s (arrivedTold n k x c s) := by
  have hmoved : State.Tells [] (fun _ => []) (fun _ => []) s
      ((s.identify n x c).modNode n fun r => { r with presence := .present, cause := none, timeouts := 0 }) := .of_same rfl rfl rfl
  unfold arrivedTold
  rw [recordIdentity_of_asleep hs]
  cases k with
  | none => exact hmoved
  | some k => exact hmoved.trans (broadcast_tells k (nodeRef n) Reason.none.code x.model _)

theorem arrivedTold_read {α : Type} {g : State → α} (hH : IgnoresHosts g) (hN : IgnoresNodes g) (k : Option EventKind) (s : State) :
    g (arrivedTold n k x c s) = g (recordIdentity n x c s) := by
  unfold arrivedTold
  dsimp only
  split
  · exact hN _ _ _
  · exact (broadcast_read hH _ _).trans (hN _ _ _)

theorem arrivedTold_maxLength (k : Option EventKind) (s : State) : (arrivedTold n k x c s).maxLength n = x.maxLength := by
  have hmoved (w : State) : (w.modNode n fun r => { r with presence := .present, cause := none, timeouts := 0 }).maxLength n = w.maxLength n := by
    rw [State.maxLength, State.modNode_nodes, get_upd_self, State.maxLength]
  rw [← recordIdentity_maxLength n x c s, ← hmoved (recordIdentity n x c s)]
  unfold arrivedTold
  dsimp only
  split
  · rfl
  · exact broadcast_read (g := fun s => s.maxLength n) (fun _ _ _ => rfl) _ _

theorem arrival_news (r : NodeRecord) (x : Identity) (m : Word16) : ((r.arrival x).toList.map fun k => plainly k (nodeRef n) 0 m)
    = if r.identity = none then [plainly .nodeArrived (nodeRef n) 0 m]
      else if ∃ i ∈ r.identity, i.vendor ≠ x.vendor ∨ i.model ≠ x.model ∨ i.revision ≠ x.revision then [plainly .nodeChanged (nodeRef n) 0 m]
      else if r.cause = some .restart then [] else [plainly .nodeArrived (nodeRef n) 0 m] := by
  unfold NodeRecord.arrival arrivalEvent
  cases r.identity with
  | none => rfl
  | some b =>
    have hsame : (!sameIdentity b x) = decide (b.vendor ≠ x.vendor ∨ b.model ≠ x.model ∨ b.revision ≠ x.revision) := by
      by_cases h₁ : b.vendor = x.vendor <;> by_cases h₂ : b.model = x.model <;> simp [sameIdentity, h₁, h₂]
    simp only [hsame, decide_eq_true_eq, Option.mem_def, Option.some.injEq, exists_eq_left', reduceCtorEq, if_false]
    split
    · rfl
    · split <;> rfl

/-! ## What an answer says -/

/-- R84, R173: the eight bytes of an answer. -/
theorem identityOf_eight (v1 v0 m1 m0 rev cap count z : Byte) : identityOf [v1, v0, m1, m0, rev, cap, count, z]
    = some ({ vendor := word16 v1 v0, model := word16 m1 m0, revision := rev, maxLength := max 1 (min 8 (cap.toNat % 16)),
              sendsNotices := cap.getLsbD 4 }, count.setWidth 4) := by
  have hmax : (if cap.toNat % 16 = 0 then 1 else if 8 < cap.toNat % 16 then 8 else cap.toNat % 16) = max 1 (min 8 (cap.toNat % 16)) := by
    split
    · omega
    · split <;> omega
  simp only [identityOf, hmax]

theorem identEnded_failing {o : Reason} (data : List Byte) (hn : s.presence n = .identifying)
    (ho : o = .timeout ∨ o = .busy ∨ o = .refused ∨ o = .badAddress) :
    identEnded n o data s = reportEnumeration (nodeLink n) (identFailed n o s) := by
  unfold identEnded
  rw [if_neg (by simp [hn])]
  rcases ho with rfl | rfl | rfl | rfl <;> rfl

theorem identEnded_answered {data : List Byte} (hn : s.presence n = .identifying) (hdata : identityOf data = some (x, c)) :
    identEnded n .ok data s = reportEnumeration (nodeLink n) (identAnswered n x c s) := by
  unfold identEnded
  rw [if_neg (by simp [hn])]
  dsimp only
  rw [hdata]

theorem identEnded_other {o : Reason} (data : List Byte) (h : s.presence n ≠ .identifying ∨ o = .linkDown ∨ o = .stopped) :
    identEnded n o data s = s := by
  unfold identEnded
  split
  · rfl
  · next hn =>
    rcases h with h | rfl | rfl
    · exact absurd h hn
    · rfl
    · rfl

theorem pinAccepts_iff (pin : Option Pin) (vendor model : Word16) :
    pinAccepts pin vendor model = true ↔ ∀ p ∈ pin, p.vendor = vendor ∧ p.model = model := by
  cases pin <;> simp [pinAccepts]

/-- The HELD writes of a node that is turned away, whichever way. -/
theorem turnedAway_ends {r : NodeRecord} {why : Reason} (hwhy : why ≠ .ok) {event : List (Option EventBody × Bool)}
    (hdecided : s.Decided n r (failNodeWrites n .held why v)) (hwrites : v.writeQueues = s.writeQueues)
    (hasleep : s.trafficOk → s.Asleep n)
    (htold : s.Asleep n → State.Tells [] (fun _ => event) (fun _ => []) s v ∧ v.slots = s.slots ∧ v.pollQueues = s.pollQueues) :
    let t := reportEnumeration (nodeLink n) (failNodeWrites n .held why v)
    t.writeQueues = (s.modWrites (nodeLink n) fun q => { q with order := q.order.filter fun y => ¬ (y.node = n ∧ y.state = .held) }).writeQueues
    ∧ (s.trafficOk → t.pollQueues = s.pollQueues ∧ ∀ h, t.hosts.get h = s.handed h (event
        ++ ((s.writeQueues.get (nodeLink n)).order.filter (WriteRecord.heldOf n)).filterMap (WriteRecord.failing h why)
        ++ if s.linkState (nodeLink n) = .enumerating ∧ s.last n then
          [plainly .linkUp (byteOf (nodeLink n).val) 0 (BitVec.ofNat 16 ((List.finRange 8).countP fun m =>
            nodeLink m = nodeLink n ∧ t.presence m = .present))] else [])) := by
  dsimp only
  refine ⟨?_, fun htraffic => ?_⟩
  · rw [reportEnumeration_read (g := State.writeQueues) (fun _ _ _ => rfl) (fun _ _ _ => rfl), failNodeWrites_writeQueues, hwrites,
      State.modWrites_writeQueues]
    simp only [decide_not]
  · obtain ⟨htells, hslots, hpolls⟩ := htold (hasleep htraffic)
    obtain ⟨hpolls', htells'⟩ := turnedAway hwhy htells hwrites hslots hpolls (hasleep htraffic)
    exact ⟨(reportEnumeration_read (g := State.pollQueues) (fun _ _ _ => rfl) (fun _ _ _ => rfl) ..).trans hpolls', hdecided.hosts htells'⟩

theorem reportEnumeration_entry (l : Link) (u : State) (i : SlotIx) : (reportEnumeration l u).entry i = u.entry i :=
  reportEnumeration_read (g := fun s => s.entry i) (fun _ _ _ => rfl) (fun _ _ _ => rfl) ..

/-- The answer of a node that its pin rejects. -/
theorem rejected_ends (hn : s.presence n = .identifying) (hpin : pinAccepts (s.nodes.get n).pin x.vendor x.model = false) :
    let t := reportEnumeration (nodeLink n) (identAnswered n x c s)
    t.nodes.get n = { s.nodes.get n with identity := some x, noticeCount := c, cause := none, presence := .quarantined }
    ∧ (t.writeQueues = (s.modWrites (nodeLink n) fun q => { q with order := q.order.filter fun y => ¬ (y.node = n ∧ y.state = .held) }).writeQueues
      ∧ (s.trafficOk → t.pollQueues = s.pollQueues ∧ ∀ h, t.hosts.get h = s.handed h
          ([plainly .nodeQuarantined (nodeRef n) Reason.ident.code x.model]
          ++ ((s.writeQueues.get (nodeLink n)).order.filter (WriteRecord.heldOf n)).filterMap (WriteRecord.failing h .quarantined)
          ++ if s.linkState (nodeLink n) = .enumerating ∧ s.last n then
            [plainly .linkUp (byteOf (nodeLink n).val) 0 (BitVec.ofNat 16 ((List.finRange 8).countP fun m =>
              nodeLink m = nodeLink n ∧ t.presence m = .present))] else [])))
    ∧ ∀ i e, s.entry i = some e → e.node = n → e.state = .suspended → ∃ e', t.entry i = some e' ∧ e'.state = .suspended := by
  dsimp only
  have hdecided := decided_answered n x c s
  have hrecord : (s.nodes.get n).answered x c
      = { s.nodes.get n with identity := some x, noticeCount := c, cause := none, presence := .quarantined } := by
    rw [NodeRecord.answered, if_neg (by simp [hpin])]
  refine ⟨hrecord ▸ hdecided.after.2.2, ?_, fun i e he hnode hstate => ?_⟩
  · rw [identAnswered_rejected hpin] at hdecided ⊢
    have hread {α : Type} {g : State → α} (hH : IgnoresHosts g) (hN : IgnoresNodes g) :
        g (rejectedTold n x c s) = g (recordIdentity n x c s) := rejectedTold_read hH hN ..
    refine turnedAway_ends (by simp) hdecided
      ((hread (g := State.writeQueues) (fun _ _ _ => rfl) fun _ _ _ => rfl).trans (recordIdentity_writeQueues n x c s))
      (fun htraffic => asleep_of_trafficOk htraffic hn) fun hs => ⟨rejectedTold_tells hs, ?_, ?_⟩
    · rw [hread (g := State.slots) (fun _ _ _ => rfl) fun _ _ _ => rfl, recordIdentity_of_asleep hs]
      rfl
    · rw [hread (g := State.pollQueues) (fun _ _ _ => rfl) fun _ _ _ => rfl, recordIdentity_of_asleep hs]
      rfl
  · have hawake : e.state ≠ .valid := by simp [hstate]
    have htold : (rejectedTold n x c s).entry i = some e :=
      (rejectedTold_read (g := fun s => s.entry i) (fun _ _ _ => rfl) (fun _ _ _ => rfl) ..).trans (recordIdentity_pales n x c s i he hawake)
    obtain ⟨e', he', heq⟩ := failWrites_pales (nodeLink n) (WriteRecord.heldOf n) (why := .quarantined) (by simp) _ i e htold hawake
    refine ⟨e', ?_, by rw [heq]; exact hstate⟩
    rw [reportEnumeration_entry, identAnswered_rejected hpin]
    exact he'

/-- The answer of a node that is accepted. -/
theorem accepted_ends (hn : s.presence n = .identifying) (hpin : pinAccepts (s.nodes.get n).pin x.vendor x.model = true) :
    let t := reportEnumeration (nodeLink n) (identAnswered n x c s)
    t.nodes.get n = { s.nodes.get n with identity := some x, noticeCount := c, cause := none, presence := .present, timeouts := 0 }
    ∧ t.writeQueues = (s.modWrites (nodeLink n) fun q => { q with
        order := (q.order.filter fun r => !r.heldTooLong n x.maxLength).map (WriteRecord.releasing n) }).writeQueues
    ∧ (s.trafficOk → (∃ entriesFirst : Bool, ∀ h, t.hosts.get h = s.handed h
        ((if (s.nodes.get n).identity = none then [plainly .nodeArrived (nodeRef n) 0 x.model]
          else if ∃ i ∈ (s.nodes.get n).identity, i.vendor ≠ x.vendor ∨ i.model ≠ x.model ∨ i.revision ≠ x.revision then
            [plainly .nodeChanged (nodeRef n) 0 x.model]
          else if (s.nodes.get n).cause = some .restart then [] else [plainly .nodeArrived (nodeRef n) 0 x.model])
        ++ (if entriesFirst then (List.finRange 48).flatMap (s.resumeNews n x.maxLength h)
            ++ ((s.writeQueues.get (nodeLink n)).order.filter (WriteRecord.heldTooLong n x.maxLength)).filterMap (WriteRecord.failing h .tooLong)
          else ((s.writeQueues.get (nodeLink n)).order.filter (WriteRecord.heldTooLong n x.maxLength)).filterMap (WriteRecord.failing h .tooLong)
            ++ (List.finRange 48).flatMap (s.resumeNews n x.maxLength h))
        ++ if s.linkState (nodeLink n) = .enumerating ∧ s.last n then
          [plainly .linkUp (byteOf (nodeLink n).val) 0 (BitVec.ofNat 16 ((List.finRange 8).countP fun m =>
            nodeLink m = nodeLink n ∧ t.presence m = .present))] else []))
      ∧ ∀ m, t.pollQueues.get m = s.pollQueues.get m ++ s.resumePolls n x.maxLength m)
    ∧ ∀ i e, s.entry i = some e → e.node = n → e.state = .suspended → ∃ e', t.entry i = some e' ∧ e.Resumed x.maxLength e' := by
  dsimp only
  have hdecided := decided_answered n x c s
  have hrecord : (s.nodes.get n).answered x c
      = { s.nodes.get n with identity := some x, noticeCount := c, cause := none, presence := .present, timeouts := 0 } := by
    rw [NodeRecord.answered, if_pos hpin]
  refine ⟨hrecord ▸ hdecided.after.2.2, ?_⟩
  obtain ⟨b, heq⟩ := identAnswered_accepted (c := c) hpin
  have hmax := arrivedTold_maxLength (n := n) (x := x) (c := c) ((s.nodes.get n).arrival x) s
  have hread {α : Type} {g : State → α} (hH : IgnoresHosts g) (hN : IgnoresNodes g) :
      g (arrivedTold n ((s.nodes.get n).arrival x) x c s) = g (recordIdentity n x c s) := arrivedTold_read hH hN ..
  have hwrites : (arrivedTold n ((s.nodes.get n).arrival x) x c s).writeQueues = s.writeQueues :=
    (hread (g := State.writeQueues) (fun _ _ _ => rfl) fun _ _ _ => rfl).trans (recordIdentity_writeQueues n x c s)
  refine ⟨?_, fun htraffic => ?_, fun i e he hnode hstate => ?_⟩
  · rw [reportEnumeration_read (g := State.writeQueues) (fun _ _ _ => rfl) (fun _ _ _ => rfl), heq, resumed_writeQueues, hwrites, hmax]
    rfl
  · have hs := asleep_of_trafficOk htraffic hn
    have hslots : (arrivedTold n ((s.nodes.get n).arrival x) x c s).slots = s.slots := by
      rw [hread (g := State.slots) (fun _ _ _ => rfl) fun _ _ _ => rfl, recordIdentity_of_asleep hs]
      rfl
    have hpolls : (arrivedTold n ((s.nodes.get n).arrival x) x c s).pollQueues = s.pollQueues := by
      rw [hread (g := State.pollQueues) (fun _ _ _ => rfl) fun _ _ _ => rfl, recordIdentity_of_asleep hs]
      rfl
    have hepochs : s.OnlyEpochs (arrivedTold n ((s.nodes.get n).arrival x) x c s) := .of_same hslots hpolls
    obtain ⟨⟨entriesFirst, ws, htells⟩, hqueues⟩ := resumed_tells b (hs.of_slots hslots)
    have hall := (arrivedTold_tells (x := x) (c := c) ((s.nodes.get n).arrival x) hs).trans htells
    rw [← heq, hmax, hwrites] at hall
    rw [← heq, hmax, hpolls] at hqueues
    refine ⟨⟨entriesFirst, fun h => ?_⟩, fun m => ?_⟩
    · have hnews : (arrivedTold n ((s.nodes.get n).arrival x) x c s).resumeNews n x.maxLength h = s.resumeNews n x.maxLength h :=
        funext fun i => hepochs.resumeNews n x.maxLength h i
      rw [hdecided.hosts hall h, arrival_news, hnews]
    · rw [reportEnumeration_read (g := State.pollQueues) (fun _ _ _ => rfl) (fun _ _ _ => rfl), hqueues, hepochs.resumePolls]
  · have htold : (arrivedTold n ((s.nodes.get n).arrival x) x c s).entry i = some e :=
      (hread (g := fun s => s.entry i) (fun _ _ _ => rfl) fun _ _ _ => rfl).trans (recordIdentity_pales n x c s i he (by simp [hstate]))
    obtain ⟨e', he', hresumed⟩ := resumed_entry b htold hnode hstate
    rw [hmax] at hresumed
    refine ⟨e', ?_, hresumed⟩
    rw [reportEnumeration_entry, heq]
    exact he'

end

/-- Settles O52: an IDENT that failed or was rejected turns the node away and fails its HELD writes, an accepted one resumes its
entries and writes in either order, and the last one of an enumeration takes the link UP. -/
theorem identEndingDecidesPresence : Obligations.IdentEndingDecidesPresence := by
  intro n outcome data s
  dsimp only
  refine ⟨identEnded_other data, fun hn hcause => ⟨fun h => ?_, fun hfailing => ?_, ?_⟩⟩
  · rcases h with hfailing | ⟨rfl, hlength⟩
    · rw [identEnded_failing data hn hfailing]
      obtain ⟨hothers, hlink, -⟩ := (decided_failed n outcome s).after
      exact ⟨hothers, hlink⟩
    · match data, hlength with
      | [v1, v0, m1, m0, rev, cap, count, z], _ =>
        rw [identEnded_answered hn (identityOf_eight ..)]
        obtain ⟨hothers, hlink, -⟩ := (decided_answered n _ _ s).after
        exact ⟨hothers, hlink⟩
  · rw [identEnded_failing data hn hfailing]
    have hdecided := decided_failed n outcome s
    refine ⟨hdecided.after.2.2, ?_⟩
    rw [identFailed_eq] at hdecided ⊢
    exact turnedAway_ends (by simp) hdecided (failedTold_read (g := State.writeQueues) (fun _ _ _ => rfl) (fun _ _ _ => rfl) ..)
      (fun htraffic => asleep_of_trafficOk htraffic hn) fun _ => ⟨failedTold_tells n outcome s,
        failedTold_read (g := State.slots) (fun _ _ _ => rfl) (fun _ _ _ => rfl) ..,
        failedTold_read (g := State.pollQueues) (fun _ _ _ => rfl) (fun _ _ _ => rfl) ..⟩
  · rintro v1 v0 m1 m0 rev cap count z rfl rfl
    let now : Identity := { vendor := word16 v1 v0, model := word16 m1 m0, revision := rev, maxLength := max 1 (min 8 (cap.toNat % 16)),
                            sendsNotices := cap.getLsbD 4 }
    rw [identEnded_answered hn (identityOf_eight v1 v0 m1 m0 rev cap count z)]
    refine ⟨fun hno => ?_, fun haccepted => ?_⟩
    · exact rejected_ends (x := now) hn (Bool.eq_false_iff.2 fun h => hno ((pinAccepts_iff ..).1 h))
    · obtain ⟨hnode, hwrites, htold, hentries⟩ := accepted_ends (x := now) (c := count.setWidth 4) hn ((pinAccepts_iff ..).2 haccepted)
      refine ⟨hnode, hwrites, htold, fun i e he hof hstate => ?_⟩
      obtain ⟨e', he', hresumed⟩ := hentries i e he hof hstate
      exact ⟨e', he', hresumed.data, hresumed.age, hresumed.state, hresumed.fault⟩

end Sys2Proof.Machine
